-- ==== Sys2Proof/Word.lean ====
section
/-! DEFINITION. The plain value types of the block: bytes, 16-bit samples, character strings (00_scope.md rule R13). -/

namespace Sys2Proof

/-- A byte: an 8-bit unsigned value (R13). -/
abbrev Byte := BitVec 8

/-- A spectral sample: a 16-bit two's complement signed value (R13 `i16`, R55; PRESUMED, the spec's own mark for
"signed means two's complement", log entry 12). -/
abbrev Sample := BitVec 16

/-- A character string, kept as its list of characters (R131, R135). -/
abbrev Text := List Char

end Sys2Proof
end

