-- ==== Sys2Proof/Config.lean ====
section
/-! DEFINITION. What is fixed before reset: the command catalog and the parameters of 00_scope.md rule R9. None of it
is state, and no operation writes it (R28, R243). -/

namespace Sys2Proof

/-- `ODD_BYTE` (R9, R152): what becomes of the unpaired last byte of a spectral chunk. -/
inductive OddByte where
  | drop
  | carry
  deriving DecidableEq, Repr, Inhabited

/-- `RESEND_WRITE` (R9, R198): whether the resend of a write keeps its write form. -/
inductive ResendWrite where
  | keep
  | read
  deriving DecidableEq, Repr, Inhabited

/-- The OPEN parameters of R9. `RESEND_LIMIT` and `ACQ_TOTAL_BYTES` are `none` or a bound. -/
structure Config where
  digest : List Byte → Byte
  codeFwRev : Byte
  codeFpgaRev : Byte
  codeAcquire : Byte
  otherCodes : List Byte
  checkRxCrc : Bool
  resendWrite : ResendWrite
  resendLimit : Option Nat
  acqTotalBytes : Option Nat
  oddByte : OddByte
  timeoutEnabled : Bool
  rxMaxChunk : Nat
  fpgaRender : Byte → Char
  deriving Inhabited

/-- `CODE_PING` (R9, R77): the one code the source gives. -/
def codePing : Byte := 0x4B

/-- `MAX_PAYLOAD` (R9, R75). -/
def maxPayload : Nat := 254

/-- Every code of the catalog, in the order of R77's table. -/
def Config.codes (c : Config) : List Byte :=
  [codePing, c.codeFwRev, c.codeFpgaRev, c.codeAcquire] ++ c.otherCodes

/-- The constraints of R9 and R10: the codes are pairwise distinct and lie in 0x0A..0x4C, a total of bytes to wait for
is at least 1, and so is the largest chunk. -/
abbrev Config.Valid (c : Config) : Prop :=
  c.codes.Nodup ∧ (∀ x ∈ c.codes, 0x0A ≤ x ∧ x ≤ 0x4C) ∧ c.acqTotalBytes ≠ some 0 ∧ 1 ≤ c.rxMaxChunk

/-- The test-only parameters of 93_implementation_defined.md section 4 and 95_test_vectors.md, with the defaults of R9.
They are the spec's invention for testing and not the device's values. `fpgaRender` has no test value there; a full
stop stands in for it. -/
def Config.testParameters : Config where
  digest := fun bs => bs.foldl (fun a b => a ^^^ b) 0
  codeFwRev := 0x10
  codeFpgaRev := 0x11
  codeAcquire := 0x12
  otherCodes := [0x20]
  checkRxCrc := false
  resendWrite := .keep
  resendLimit := none
  acqTotalBytes := none
  oddByte := .drop
  timeoutEnabled := false
  rxMaxChunk := 260
  fpgaRender := fun _ => '.'

/-- The values the hardware gives the OPEN parameters: nothing in Lean can evaluate them (log entry 1). -/
opaque Config.chosen : Config

/-- The configuration of the machine: the chosen parameters. Parameters that break R10 describe no block, so for those
the definition falls back on the test parameters; every `Config` that meets R10 is still a possible value (log entry 1). -/
def Config.device : Config := if Config.chosen.Valid then Config.chosen else Config.testParameters

end Sys2Proof
end

