-- ==== Sys2Proof/Syntax.lean ====
section
/-! DEFINITION. The operations of the block: one constructor of `Instr` for each row of spec/opcode_table.json, and the
form in which the agents offer them at the ports (30_encoding.md rules R74, R86, R90, R91). -/

namespace Sys2Proof

/-- An endpoint descriptor. The block never looks inside one (R9, D33), so it is only a name (log entry 10). -/
structure Endpoint where
  id : Nat
  deriving DecidableEq, Repr

/-- A transport handle. The block never looks inside one (R9, R26, D33), so it is only a name (log entry 10). -/
structure Handle where
  id : Nat
  deriving DecidableEq, Repr

/-- The three kinds of teardown a host may ask for (R90, R200). -/
inductive TeardownKind where
  | disconnect
  | refresh
  | reconnect
  deriving DecidableEq, Repr

/-- The agents that act on the block through its ports (R19); the timer is the host's (R90, op 0xE). -/
inductive Agent where
  | host
  | listener
  | transport
  | timer
  deriving DecidableEq, Repr

/-- The instruction set. The ten command forms are the lines `send CMD r|w [payload]` of R86, named by the command byte
they put on the link (log entry 5); the ten port operations are those of R90; the six reserved codes are R91's. -/
inductive Instr where
  | pingRead (payload : List Byte)
  | pingWrite (payload : List Byte)
  | fwRevRead (payload : List Byte)
  | fwRevWrite (payload : List Byte)
  | fpgaRevRead (payload : List Byte)
  | fpgaRevWrite (payload : List Byte)
  | acquireRead (payload : List Byte)
  | acquireWrite (payload : List Byte)
  | otherRead (code : Byte) (payload : List Byte)
  | otherWrite (code : Byte) (payload : List Byte)
  | hostConnect (endpoint : Endpoint)
  | hostSend (code : Byte) (isWrite : Bool) (payload : List Byte)
  | hostTeardown (kind : TeardownKind)
  | connectOk (handle : Handle)
  | connectErr
  | txDone (bytesWritten : Nat)
  | txErr
  | rxChunk (chunk : List Byte)
  | rxErr
  | timerTimeout
  | reserved0
  | reserved4
  | reserved5
  | reserved6
  | reserved7
  | reservedF
  deriving DecidableEq, Repr

/-- The operands that travel beside an op code and are not packed into bits with it (R90). Every operand of every
operation has its lane; an operation reads its own lanes only (log entry 18). -/
structure Lanes where
  endpoint : Endpoint := ⟨0⟩
  code : Byte := 0
  isWrite : Bool := false
  payload : List Byte := []
  kind : TeardownKind := .disconnect
  handle : Handle := ⟨0⟩
  bytesWritten : Nat := 0
  chunk : List Byte := []
  deriving DecidableEq, Repr

/-- One operation offered at a port: a 4-bit op code with its operand lanes (R90), or a command in its own form, the
command byte of R74 and a payload (R86; log entries 2 and 5). -/
inductive Offer where
  | port (op : BitVec 4) (x : Lanes)
  | command (cmdByte : Byte) (payload : List Byte)
  deriving DecidableEq, Repr

end Sys2Proof
end

