-- ==== Sys2Proof/WellFormed.lean ====
section
/-! DEFINITION. Which operations have legal operands: the operand ranges the spec states for each. The machine also has a
meaning for every operation whose operands are not legal (R178, R179). -/

namespace Sys2Proof

/-- A payload the length byte can describe (R71, R75, R100). -/
def payloadFits (payload : List Byte) : Bool := payload.length ≤ maxPayload

/-- Legal operands: a payload of at most `MAX_PAYLOAD` bytes (R100); a code of `OTHER_CODES` for the OTHER forms (R77); a
catalog code for `HOST_SEND` (R175); a chunk of at most `RX_MAX_CHUNK` bytes (R185). -/
def Instr.wf (c : Config) : Instr → Bool
  | .pingRead p | .pingWrite p | .fwRevRead p | .fwRevWrite p | .fpgaRevRead p | .fpgaRevWrite p
  | .acquireRead p | .acquireWrite p => payloadFits p
  | .otherRead code p | .otherWrite code p => c.otherCodes.contains code && payloadFits p
  | .hostSend code _ p => c.codes.contains code && payloadFits p
  | .rxChunk chunk => chunk.length ≤ c.rxMaxChunk
  | .hostConnect _ | .hostTeardown _ | .connectOk _ | .connectErr | .txDone _ | .txErr | .rxErr | .timerTimeout
  | .reserved0 | .reserved4 | .reserved5 | .reserved6 | .reserved7 | .reservedF => true

end Sys2Proof
end

