-- ==== Sys2Proof/Decode.lean ====
section
/-! DEFINITION. Reading and writing the two levels of encoding of 30_encoding.md: the wire level (command bytes and
outbound frames, R71 to R83) and the port level (op codes with operand lanes, R90 and R91). Decoding first, then the
encoders. -/

namespace Sys2Proof

/-- Why bits are no operation, by name. -/
inductive DecodeReject where
  /-- the command byte's code is outside 0x0A..0x4C: never encoded (R80) -/
  | codeOutOfRange (cmdByte : Byte)
  /-- the code is in the range, and the catalog has no command with it (R80) -/
  | unknownCommand (cmdByte : Byte)
  /-- shorter than the six bytes of a frame with an empty payload (R71) -/
  | frameTooShort
  /-- offset 0 is not 0x3C or the last byte is not 0x3E (R71) -/
  | frameBadDelimiters
  /-- offset 1, the reserved byte, is not 0x00 (R82) -/
  | frameBadReserved
  /-- offset 2 is not the payload length + 1 (R75, R83) -/
  | frameBadLength
  /-- the checksum byte is not the digest of the bytes before it (R76) -/
  | frameBadChecksum
  deriving DecidableEq, Repr

/-- `b[i]`, used only at offsets the caller has checked to exist (R14, R51). -/
def byteAt (b : List Byte) (i : Nat) : Byte := b.getD i 0

/-- `b[lo..hi)`, the half-open sub-sequence; empty when `lo ≥ hi` (R14). -/
def slice (b : List Byte) (lo hi : Nat) : List Byte := (b.take hi).drop lo

/-- Bits 6:0 of a command byte: the code (R74). -/
def codeOf (cmdByte : Byte) : Byte := cmdByte &&& 0x7F

/-- Bit 7 of a command byte: the write flag (R74). -/
def isWriteOf (cmdByte : Byte) : Bool := cmdByte.getLsbD 7

/-- The command form a command byte stands for, with its payload: the catalog lookup of R77 on bits 6:0, the form by bit 7
(R74), by the byte map of R80. -/
def decodeCommand (c : Config) (cmdByte : Byte) (payload : List Byte) : Except DecodeReject Instr :=
  if codeOf cmdByte < 0x0A ∨ 0x4C < codeOf cmdByte then .error (.codeOutOfRange cmdByte)
  else if codeOf cmdByte = codePing then
    .ok (if isWriteOf cmdByte then .pingWrite payload else .pingRead payload)
  else if codeOf cmdByte = c.codeFwRev then
    .ok (if isWriteOf cmdByte then .fwRevWrite payload else .fwRevRead payload)
  else if codeOf cmdByte = c.codeFpgaRev then
    .ok (if isWriteOf cmdByte then .fpgaRevWrite payload else .fpgaRevRead payload)
  else if codeOf cmdByte = c.codeAcquire then
    .ok (if isWriteOf cmdByte then .acquireWrite payload else .acquireRead payload)
  else if codeOf cmdByte ∈ c.otherCodes then
    .ok (if isWriteOf cmdByte then .otherWrite (codeOf cmdByte) payload else .otherRead (codeOf cmdByte) payload)
  else .error (.unknownCommand cmdByte)

/-- The port operation of a 4-bit op code, with the operands of its lanes: R90's ten operations and R91's six reserved
codes, so that every code is one of them. -/
def decodePort (op : BitVec 4) (x : Lanes) : Instr :=
  match op.toNat with
  | 0x0 => .reserved0
  | 0x1 => .hostConnect x.endpoint
  | 0x2 => .hostSend x.code x.isWrite x.payload
  | 0x3 => .hostTeardown x.kind
  | 0x4 => .reserved4
  | 0x5 => .reserved5
  | 0x6 => .reserved6
  | 0x7 => .reserved7
  | 0x8 => .connectOk x.handle
  | 0x9 => .connectErr
  | 0xA => .txDone x.bytesWritten
  | 0xB => .txErr
  | 0xC => .rxChunk x.chunk
  | 0xD => .rxErr
  | 0xE => .timerTimeout
  | _ => .reservedF

/-- The operation an agent offers. -/
def decodeOffer (c : Config) : Offer → Except DecodeReject Instr
  | .port op x => .ok (decodePort op x)
  | .command cmdByte payload => decodeCommand c cmdByte payload

/-- An outbound frame read back as the command form it carries: total on any bytes. The parts are found as R83 and R102
say: the command byte at offset 3, the payload from offset 4 up to the checksum byte. -/
def decodeFrame (c : Config) (b : List Byte) : Except DecodeReject Instr :=
  if b.length < 6 then .error .frameTooShort
  else if byteAt b 0 ≠ 0x3C ∨ byteAt b (b.length - 1) ≠ 0x3E then .error .frameBadDelimiters
  else if byteAt b 1 ≠ 0x00 then .error .frameBadReserved
  else if (byteAt b 2).toNat + 5 ≠ b.length then .error .frameBadLength
  else if byteAt b (b.length - 2) ≠ c.digest (slice b 1 (b.length - 2)) then .error .frameBadChecksum
  else decodeCommand c (byteAt b 3) (slice b 4 (b.length - 2))

/-- The offer a word of the opcode table stands for, its operands all zero. The table's two levels overlap in the values
0x0A to 0x0F: a word below 16 is read as a port op code, any other as a command byte (log entry 6). -/
def offerOfTableWord (w : Nat) : Offer :=
  if w < 16 then .port (BitVec.ofNat 4 w) {} else .command (BitVec.ofNat 8 w) []

/-- The operation the decoder reads from a row's word (fixed name of the host's check). Every row of the table is one word
of at most 8 bits. -/
def decodeTableWord (nbits w : Nat) : Option Instr :=
  if nbits ≤ 8 ∧ w < 2 ^ nbits then (decodeOffer Config.device (offerOfTableWord w)).toOption else none

/-- `cmdByte := if isWrite then (code | 0x80) else code` (R74). -/
def commandByte (code : Byte) (isWrite : Bool) : Byte := if isWrite then code ||| 0x80 else code

/-- The bytes the checksum covers: reserved byte, length byte, command byte, payload (R76). -/
def frameBody (code : Byte) (isWrite : Bool) (payload : List Byte) : List Byte :=
  [0x00, BitVec.ofNat 8 (payload.length + 1), commandByte code isWrite] ++ payload

/-- `Encode(code, isWrite, payload)` (R100): the outbound frame of R71. Its domain is a payload of at most `MAX_PAYLOAD`
bytes (R101); the session checks that first (R179). -/
def encodeFrame (c : Config) (code : Byte) (isWrite : Bool) (payload : List Byte) : List Byte :=
  [0x3C] ++ frameBody code isWrite payload ++ [c.digest (frameBody code isWrite payload), 0x3E]

/-- The code, form and payload of a command form (R77, R86); port operations have none. -/
def commandParts (c : Config) : Instr → Option (Byte × Bool × List Byte)
  | .pingRead p => some (codePing, false, p)
  | .pingWrite p => some (codePing, true, p)
  | .fwRevRead p => some (c.codeFwRev, false, p)
  | .fwRevWrite p => some (c.codeFwRev, true, p)
  | .fpgaRevRead p => some (c.codeFpgaRev, false, p)
  | .fpgaRevWrite p => some (c.codeFpgaRev, true, p)
  | .acquireRead p => some (c.codeAcquire, false, p)
  | .acquireWrite p => some (c.codeAcquire, true, p)
  | .otherRead code p => some (code, false, p)
  | .otherWrite code p => some (code, true, p)
  | .hostConnect _ | .hostSend _ _ _ | .hostTeardown _ | .connectOk _ | .connectErr | .txDone _ | .txErr | .rxChunk _
  | .rxErr | .timerTimeout | .reserved0 | .reserved4 | .reserved5 | .reserved6 | .reserved7 | .reservedF => none

/-- The outbound frame of a command form (R71, R100); port operations put none on the link by themselves. -/
def frameOf (c : Config) (i : Instr) : Option (List Byte) :=
  (commandParts c i).map fun (code, w, p) => encodeFrame c code w p

/-- The offer by which an agent asks for an operation: a command form by its command byte (R74, R86), a port operation by
its op code with its operands in their lanes (R90, R91). -/
def encodeOffer (c : Config) : Instr → Offer
  | .pingRead p => .command (commandByte codePing false) p
  | .pingWrite p => .command (commandByte codePing true) p
  | .fwRevRead p => .command (commandByte c.codeFwRev false) p
  | .fwRevWrite p => .command (commandByte c.codeFwRev true) p
  | .fpgaRevRead p => .command (commandByte c.codeFpgaRev false) p
  | .fpgaRevWrite p => .command (commandByte c.codeFpgaRev true) p
  | .acquireRead p => .command (commandByte c.codeAcquire false) p
  | .acquireWrite p => .command (commandByte c.codeAcquire true) p
  | .otherRead code p => .command (commandByte code false) p
  | .otherWrite code p => .command (commandByte code true) p
  | .reserved0 => .port 0x0 {}
  | .hostConnect e => .port 0x1 { endpoint := e }
  | .hostSend code w p => .port 0x2 { code := code, isWrite := w, payload := p }
  | .hostTeardown k => .port 0x3 { kind := k }
  | .reserved4 => .port 0x4 {}
  | .reserved5 => .port 0x5 {}
  | .reserved6 => .port 0x6 {}
  | .reserved7 => .port 0x7 {}
  | .connectOk h => .port 0x8 { handle := h }
  | .connectErr => .port 0x9 {}
  | .txDone k => .port 0xA { bytesWritten := k }
  | .txErr => .port 0xB {}
  | .rxChunk chunk => .port 0xC { chunk := chunk }
  | .rxErr => .port 0xD {}
  | .timerTimeout => .port 0xE {}
  | .reservedF => .port 0xF {}

/-- The agent an operation belongs to (R90); the command forms are the host's (R86), a reserved code is no agent's
(R91). -/
def Instr.agent : Instr → Option Agent
  | .pingRead _ | .pingWrite _ | .fwRevRead _ | .fwRevWrite _ | .fpgaRevRead _ | .fpgaRevWrite _ | .acquireRead _
  | .acquireWrite _ | .otherRead _ _ | .otherWrite _ _ | .hostConnect _ | .hostSend _ _ _ | .hostTeardown _ => some .host
  | .connectOk _ | .connectErr | .txDone _ | .txErr => some .transport
  | .rxChunk _ | .rxErr => some .listener
  | .timerTimeout => some .timer
  | .reserved0 | .reserved4 | .reserved5 | .reserved6 | .reserved7 | .reservedF => none

end Sys2Proof
end

