-- ==== Sys2Proof/Machine/State.lean ====
section
/-! DEFINITION. The state of the block, 10_state.md rules R22 to R34, and the reports it makes, 60_exceptions.md rules R210
to R217. Plain data. -/

namespace Sys2Proof.Machine

/-- `st.session` (R22). -/
inductive SessionState where
  | disconnected
  | connecting
  | idle
  | awaiting
  deriving DecidableEq, Repr

/-- `st.listener` (R27). -/
inductive Listener where
  | stopped
  | running
  deriving DecidableEq, Repr

/-- The command awaiting its response, the record inside `st.pending` (R23, R24). -/
structure Pending where
  code : Byte
  isWrite : Bool
  resends : Nat
  deriving DecidableEq, Repr

/-- `st.acc`, the Spectral Accumulator (R25). -/
structure Acc where
  samples : List Sample
  byteCount : Nat
  carry : Option Byte
  deriving DecidableEq, Repr

/-- The empty accumulator `{[], 0, none}` (R25, R156). -/
def Acc.empty : Acc := { samples := [], byteCount := 0, carry := none }

/-- The five fields of an accepted inbound frame (R79). -/
structure InboundFrame where
  b1 : Byte
  b2 : Byte
  cmdByte : Byte
  payload : List Byte
  crc : Byte
  deriving DecidableEq, Repr

/-- The typed result of a command (R131). The FPGA revision keeps its bytes and carries its text reading (R135). -/
inductive Result where
  | ack
  | firmwareRev (text : Text)
  | fpgaRev (bytes : List Byte) (text : Text)
  | other (frame : InboundFrame)
  | spectrum (samples : List Sample)
  deriving DecidableEq, Repr

/-- Why a command was rejected (R210). -/
inductive RejectReason where
  | tooShort
  | badDelimiters
  | commandMismatch
  | checksumMismatch
  | timeout
  deriving DecidableEq, Repr

/-- Why the listener stopped (R213). -/
inductive StopReason where
  | cancelled
  | transportErrorSend
  | transportErrorReceive
  deriving DecidableEq, Repr

/-- The statuses a host operation returns (R92). -/
inductive HostStatus where
  | accepted
  | busy
  | notConnected
  | alreadyConnected
  deriving DecidableEq, Repr

/-- The log-level traces (R212). -/
inductive TraceKind where
  | protocolViolation (chunk : List Byte)
  | resent (code : Byte)
  | resendLimitReached (code : Byte)
  | pendingAbandoned (code : Byte)
  | hostRefused (status : HostStatus)
  | transportFailureConnect
  deriving DecidableEq, Repr

/-- What the block reports (R29, R214). -/
inductive Event where
  | commandCompleted (code : Byte) (result : Result)
  | commandRejected (code : Byte) (reason : RejectReason)
  | spectralChunk (samples : List Sample)
  | listenerStopped (reason : StopReason)
  | trace (kind : TraceKind)
  deriving DecidableEq, Repr

/-- The calls on the transport for which the spec says when the block makes them (R228): `connect` (R171), `send` (R175, R189),
`close` (R196). DESIGN CHOICE: the `receive` calls of the listen loop are not recorded, since the spec leaves open when each is
made (R184, R228); a running listener stands for one that is waiting (log entry 19). -/
inductive TransportCall where
  | connect (endpoint : Endpoint)
  | send (frame : List Byte)
  | close (handle : Handle)
  deriving DecidableEq, Repr

/-- The spec's `FaultReason` (R216), recorded in `State.fault`. -/
inductive Fault where
  /-- A fixed-tail range that starts before offset 0 (R136), raised by a received chunk (R188). The step answers a next
  state with the fault recorded, because R216 says the block keeps taking operations. Safe: a claim that needs "no fault"
  names the field. -/
  | decodeRange
  deriving DecidableEq, Repr

/-- The spec's `RefusalReason` (R217); a refusal sets the mark `State.refused` and the step answers a next state. -/
inductive Refusal where
  /-- the arm of an instruction that has no meaning yet; no arm of this model answers it (safe) -/
  | notModelled (mnemonic : String)
  /-- a send that names no catalog command, raised by `HOST_SEND` (R178) and by a command byte outside the catalog (safe) -/
  | unknownCommand
  /-- a send with more than `MAX_PAYLOAD` bytes, raised by `HOST_SEND` and the command forms (R179; safe) -/
  | payloadTooLong
  /-- a reserved op code, and the timeout op of a block without a timer (R91; safe) -/
  | reservedOp
  deriving DecidableEq, Repr

/-- The block's state: the fields of R22 to R32, and after them the model's own view of the ports (log entries 2, 7, 8). -/
structure State where
  /-- R22 -/
  session : SessionState
  /-- R23, R24 -/
  pending : Option Pending
  /-- R25 -/
  acc : Acc
  /-- R26 -/
  conn : Option Handle
  /-- R27 -/
  listener : Listener
  /-- R29, oldest first -/
  events : List Event
  /-- R30, oldest first -/
  txq : List (List Byte)
  /-- R31 -/
  fault : Option Fault
  /-- R32 -/
  refused : Bool
  /-- the model's own: the status last returned to the host (R15 `return s`, R92; log entry 7) -/
  hostStatus : Option HostStatus
  /-- the model's own: the connect, send and close calls made on the transport, oldest first (R228; log entries 8 and 19) -/
  calls : List TransportCall
  /-- the model's own: the operations the agents offer, in the order of the run (R64, R86; log entry 2) -/
  offers : List Offer
  deriving DecidableEq, Repr

/-- The state after a block reset (R34, R240); the model's own fields are empty (log entries 2, 7, 8). -/
def State.reset : State where
  session := .disconnected
  pending := none
  acc := .empty
  conn := none
  listener := .stopped
  events := []
  txq := []
  fault := none
  refused := false
  hostStatus := none
  calls := []
  offers := []

end Sys2Proof.Machine
end

