-- ==== Sys2Proof/Machine/Operands.lean ====
section
/-! DEFINITION. The operand forms: the fixed-tail ranges, the sample pairs, and the renderings of bytes as text
(20_memory.md rule R55, 30_encoding.md rule R78, 41_response_decoder.md rules R132 to R135). -/

namespace Sys2Proof.Machine

/-- `zext_16(hi) << 8 | zext_16(lo)`, the little-endian sample of two stream bytes (R55). -/
def sampleOf (lo hi : Byte) : Sample := (hi.zeroExtend 16 <<< 8) ||| lo.zeroExtend 16

/-- `sext_16(v)`: the integer a 16-bit pattern stands for (R13). -/
def sext16 (v : BitVec 16) : Int := if v.toNat < 0x8000 then (v.toNat : Int) else (v.toNat : Int) - 0x10000

/-- The range `FixedTail(offset, len)` selects: `b[L-offset-len .. L-offset)` (R78), or nothing where it would start before
offset 0 (R136). -/
def fixedTail (offset len : Nat) (b : List Byte) : Option (List Byte) :=
  if b.length < offset + len then none
  else some (slice b (b.length - offset - len) (b.length - offset))

/-- The character of a decimal digit. -/
def digitChar (n : Nat) : Char := Char.ofNat (0x30 + n)

/-- `dec(v)`: the unsigned decimal numeral of a byte, with no leading zeros (R133). -/
def decimal (v : Byte) : Text :=
  let n := v.toNat
  if n < 10 then [digitChar n]
  else if n < 100 then [digitChar (n / 10), digitChar (n % 10)]
  else [digitChar (n / 100), digitChar (n / 10 % 10), digitChar (n % 10)]

/-- `RenderFw`: the extracted bytes 1 to 4 in decimal, joined by full stops; byte 0 is never examined (R133). -/
def renderFw (x : List Byte) : Text :=
  decimal (byteAt x 1) ++ ['.'] ++ decimal (byteAt x 2) ++ ['.'] ++ decimal (byteAt x 3) ++ ['.'] ++ decimal (byteAt x 4)

/-- A printable ASCII code, 0x20 to 0x7E (R135; PRESUMED, the spec's own mark, log entry 12). -/
def isPrintable (v : Byte) : Bool := 0x20 ≤ v && v ≤ 0x7E

/-- `ch(b)`: the ASCII character of a printable code, `FPGA_RENDER(b)` otherwise (R135). -/
def fpgaChar (c : Config) (v : Byte) : Char := if isPrintable v then Char.ofNat v.toNat else c.fpgaRender v

/-- The text reading of the FPGA revision's bytes; nothing is trimmed (R135). -/
def fpgaText (c : Config) (x : List Byte) : Text := x.map (fpgaChar c)

/-- How a command's response is decoded: the catalog's tags (R77, R78). -/
inductive Strategy where
  | acknowledge
  | fixedTail (offset len : Nat)
  | rawSpectralStream
  | unmodeled
  deriving DecidableEq, Repr

/-- The tag of a code (R77). "All other commands" are `Unmodeled` (R78); that a pending code is always a catalog code is
an invariant, and in states that break it the code counts as one of the others (log entry 14). -/
def strategyOf (c : Config) (code : Byte) : Strategy :=
  if code = codePing then .acknowledge
  else if code = c.codeFwRev then .fixedTail 2 5
  else if code = c.codeFpgaRev then .fixedTail 2 7
  else if code = c.codeAcquire then .rawSpectralStream
  else .unmodeled

end Sys2Proof.Machine
end

