-- ==== Sys2Proof/Machine/Flags.lean ====
section
/-! DEFINITION. What can be observed and what enables an operation: the status view of R36, the enabling conditions of
43_session.md, and the numeric codes of the enumerations (R17). The block has no condition-code register (R36). -/

namespace Sys2Proof.Machine

/-- `Connected` means `Idle` or `Awaiting` (R22). -/
def connected (s : State) : Bool := s.session = .idle || s.session = .awaiting

/-- `busy(st)`, the predicate the single-outstanding guard reads (R36). -/
def busy (s : State) : Bool := s.session = .awaiting

/-- The last event, which a host observes (R36). -/
def lastEvent (s : State) : Option Event := s.events.getLast?

/-- A connect result is taken only while `Connecting` (R172, R173). -/
def connectResultEnabled (s : State) : Bool := s.session = .connecting

/-- A send completion is taken only in a connection with a frame in flight (R182, R183). -/
def txResultEnabled (s : State) : Bool := connected s && !s.txq.isEmpty

/-- The listener takes something only in a connection, while it runs (R185, R193, R201). -/
def rxEnabled (s : State) : Bool := connected s && s.listener = .running

/-- A chunk the transport can return: at most `RX_MAX_CHUNK` bytes (R185, R229; log entry 11). -/
def chunkAdmitted (c : Config) (chunk : List Byte) : Bool := chunk.length ≤ c.rxMaxChunk

/-- Numeric code of a session state (R22). -/
def SessionState.code : SessionState → Nat
  | .disconnected => 0 | .connecting => 1 | .idle => 2 | .awaiting => 3

/-- Numeric code of a status (R92). -/
def HostStatus.code : HostStatus → Nat
  | .accepted => 0 | .busy => 1 | .notConnected => 2 | .alreadyConnected => 3

/-- Numeric code of a reject reason (R210). -/
def RejectReason.code : RejectReason → Nat
  | .tooShort => 1 | .badDelimiters => 2 | .commandMismatch => 3 | .checksumMismatch => 4 | .timeout => 5

/-- Numeric code of a trace kind (R212). -/
def TraceKind.code : TraceKind → Nat
  | .protocolViolation _ => 1 | .resent _ => 2 | .resendLimitReached _ => 3 | .pendingAbandoned _ => 4
  | .hostRefused _ => 5 | .transportFailureConnect => 6

/-- Numeric code of a stop reason (R213). -/
def StopReason.code : StopReason → Nat
  | .cancelled => 1 | .transportErrorSend => 2 | .transportErrorReceive => 3

/-- Numeric code of an event (R214). -/
def Event.code : Event → Nat
  | .commandCompleted _ _ => 1 | .commandRejected _ _ => 2 | .spectralChunk _ => 3 | .listenerStopped _ => 4 | .trace _ => 5

/-- Numeric code of a fault reason (R216). -/
def Fault.code : Fault → Nat
  | .decodeRange => 1

end Sys2Proof.Machine
end

