-- ==== Sys2Proof/Machine/Ops.lean ====
section
/-! DEFINITION. The named operations on the state: the effect primitives of 00_scope.md rule R15, the teardown procedure of
R196, and the block's one analogue of taking an exception, the handling of a rejected frame (60_exceptions.md rules R221 to
R223, 43_session.md rules R189, R190, R198). -/

namespace Sys2Proof.Machine

/-- `emit E` (R15, R29). -/
def State.emit (s : State) (e : Event) : State := { s with events := s.events ++ [e] }

/-- A call on the transport (R228; log entries 8 and 19). -/
def State.call (s : State) (k : TransportCall) : State := { s with calls := s.calls ++ [k] }

/-- `txEnqueue(frame)` (R15, R30): the frame is handed to the transport's `send` and stays queued until completed. -/
def State.txEnqueue (s : State) (frame : List Byte) : State :=
  { s.call (.send frame) with txq := s.txq ++ [frame] }

/-- `return s` to the host (R15, R92; log entry 7). -/
def State.returnStatus (s : State) (r : HostStatus) : State := { s with hostStatus := some r }

/-- A host operation turned away with a status: the trace, the status, nothing else (R174, R176, R177, R195). -/
def State.turnAway (s : State) (r : HostStatus) : State := (s.emit (.trace (.hostRefused r))).returnStatus r

/-- `raise Fault(r)`: the mark is set, and the rest of the step does nothing (R15, R31, R216). -/
def State.raiseFault (s : State) (r : Fault) : State := { s with fault := some r }

/-- `refuse(r)`: no effect but the refusal mark, which does not record the reason (R15, R32, R217). -/
def State.refuse (s : State) (_ : Refusal) : State := { s with refused := true }

/-- The refusal a bit pattern that is no command draws (R178; log entry 17). -/
def rejectedOffer (s : State) (_ : DecodeReject) : State := s.refuse .unknownCommand

/-- `if st.pending = some p then emit Trace(PendingAbandoned(p.code))`, the first line of R196. -/
def State.traceAbandoned (s : State) : State :=
  match s.pending with
  | some p => s.emit (.trace (.pendingAbandoned p.code))
  | none => s

/-- `close(st.conn); st.conn <- none`, releasing the transport (R196). -/
def State.closeConn (s : State) : State :=
  match s.conn with
  | some h => { s.call (.close h) with conn := none }
  | none => s

/-- `Teardown(reason)` (R196). -/
def State.teardown (s : State) (reason : StopReason) : State :=
  let cleared := { s.traceAbandoned with pending := none, acc := .empty, txq := [], listener := .stopped }
  { cleared.closeConn with session := .disconnected }.emit (.listenerStopped reason)

/-- The write flag of a resend frame (R198, `RESEND_WRITE`). -/
def resendIsWrite (c : Config) (p : Pending) : Bool :=
  match c.resendWrite with
  | .keep => p.isWrite
  | .read => false

/-- `ResendFrame(p)`: the pending command once more, with an empty payload (R198). -/
def resendFrame (c : Config) (p : Pending) : List Byte := encodeFrame c p.code (resendIsWrite c p) []

/-- Whether a rejection is followed by a resend (R189, R190, `RESEND_LIMIT`). -/
def resendAllowed (c : Config) (p : Pending) : Bool :=
  match c.resendLimit with
  | none => true
  | some k => p.resends < k

/-- `Reject(p, x)`: entry into the handling of a rejected frame (R221). It records the rejection and, within the limit,
counts and queues one resend (R189); at the limit it sends nothing (R190). -/
def State.reject (c : Config) (s : State) (p : Pending) (x : RejectReason) : State :=
  if resendAllowed c p then
    ({ s.emit (.commandRejected p.code x) with pending := some { p with resends := p.resends + 1 } }.txEnqueue
      (resendFrame c p)).emit (.trace (.resent p.code))
  else (s.emit (.commandRejected p.code x)).emit (.trace (.resendLimitReached p.code))

/-- Return from the handling: a pending command ends and the session is `Idle` again (R187, R191, R192). A rejection
itself returns by the end of its step, with the same command pending (R222). -/
def State.endPending (s : State) : State := { s with pending := none, session := .idle }

end Sys2Proof.Machine
end

