-- ==== Sys2Proof/Machine/Codec.lean ====
section
/-! DEFINITION. The Frame Codec's `Validate` (40_frame_codec.md rules R103 to R110). Its `Encode` is `encodeFrame` of
Decode.lean (R100). -/

namespace Sys2Proof.Machine

/-- What `Validate` returns (R103). -/
inductive Validated where
  | ok (f : InboundFrame)
  | reject (r : RejectReason)
  deriving DecidableEq, Repr

/-- The fields of an accepted chunk (R79). -/
def inboundFrame (b : List Byte) : InboundFrame where
  b1 := byteAt b 1
  b2 := byteAt b 2
  cmdByte := byteAt b 3
  payload := slice b 4 (b.length - 2)
  crc := byteAt b (b.length - 2)

/-- `Validate(buf, expected)`, its tests in the order of R108. -/
def validate (c : Config) (b : List Byte) (expected : Byte) : Validated :=
  if b.length < 6 then .reject .tooShort
  else if byteAt b 0 ≠ 0x3C ∨ byteAt b (b.length - 1) ≠ 0x3E then .reject .badDelimiters
  else if byteAt b 3 ≠ expected then .reject .commandMismatch
  else if c.checkRxCrc ∧ byteAt b (b.length - 2) ≠ c.digest (slice b 1 (b.length - 2)) then .reject .checksumMismatch
  else .ok (inboundFrame b)

end Sys2Proof.Machine
end

