-- ==== Sys2Proof/Machine/Responses.lean ====
section
/-! DEFINITION. The Response Decoder (41_response_decoder.md rules R130 to R140): a pure function of the chunk and the
pending code. -/

namespace Sys2Proof.Machine

/-- What `DecodeFramed` returns (R130). -/
inductive Decoded where
  | decoded (r : Result)
  | rejected (r : RejectReason)
  | faulted (f : Fault)
  deriving DecidableEq, Repr

/-- The result read from a fixed tail: the firmware revision's text (R133), or the FPGA revision's bytes and text (R135). -/
def tailResult (c : Config) (code : Byte) (x : List Byte) : Result :=
  if code = c.codeFwRev then .firmwareRev (renderFw x) else .fpgaRev x (fpgaText c x)

/-- The decoding of a validated chunk by the pending code's tag (R130, R132 to R138). The session never sends a chunk of
the raw spectral tag here (R185). -/
def decodeAccepted (c : Config) (b : List Byte) (code : Byte) (f : InboundFrame) : Decoded :=
  match strategyOf c code with
  | .acknowledge => .decoded .ack
  | .fixedTail offset len =>
    match fixedTail offset len b with
    | none => .faulted .decodeRange
    | some x => .decoded (tailResult c code x)
  | .rawSpectralStream => .decoded (.other f)
  | .unmodeled => .decoded (.other f)

/-- `DecodeFramed(buf, code)` (R130). -/
def decodeFramed (c : Config) (b : List Byte) (code : Byte) : Decoded :=
  match validate c b code with
  | .reject r => .rejected r
  | .ok f => decodeAccepted c b code f

end Sys2Proof.Machine
end

