-- ==== Sys2Proof/Machine/Spectral.lean ====
section
/-! DEFINITION. The Spectral Accumulator (42_spectral_accumulator.md rules R150 to R157). -/

namespace Sys2Proof.Machine

/-- `PairSamples(bytes)`: the bytes two at a time from offset 0; an odd last byte is no sample (R151). -/
def pairSamples : List Byte → List Sample
  | lo :: hi :: rest => sampleOf lo hi :: pairSamples rest
  | [_] => []
  | [] => []

/-- The bytes that are paired: a carried byte comes before the chunk (R153). -/
def accBytes (acc : Acc) (chunk : List Byte) : List Byte :=
  match acc.carry with
  | some b => [b] ++ chunk
  | none => chunk

/-- `carry'` of R153: the unpaired last byte under `Carry`, nothing under `Drop` (R152). -/
def carryOf (c : Config) (bytes : List Byte) : Option Byte :=
  if c.oddByte = .carry ∧ bytes.length % 2 = 1 then some (byteAt bytes (bytes.length - 1)) else none

/-- `AccumulateChunk(acc, chunk)`: the accumulator after the chunk, and the chunk's own samples (R153, R154). -/
def accumulateChunk (c : Config) (acc : Acc) (chunk : List Byte) : Acc × List Sample :=
  let bytes := accBytes acc chunk
  let samples := pairSamples bytes
  ({ samples := acc.samples ++ samples
     byteCount := acc.byteCount + chunk.length
     carry := carryOf c bytes }, samples)

/-- `Complete(acc')` (R155). -/
def acquisitionComplete (c : Config) (acc : Acc) : Bool :=
  match c.acqTotalBytes with
  | none => true
  | some total => total ≤ acc.byteCount

end Sys2Proof.Machine
end

