-- ==== Sys2Proof/Machine/Commands.lean ====
section
/-! DEFINITION. Issuing a command (43_session.md rules R175 to R181) and the ten command forms, which are that issue with
the code and the write flag their command byte holds (R74, R77, R86; log entry 5). -/

namespace Sys2Proof.Machine

/-- The accumulator is cleared when an ACQUIRE is issued (R156, R175). -/
def accAtIssue (c : Config) (code : Byte) (acc : Acc) : Acc := if code = c.codeAcquire then .empty else acc

/-- The accepted case of a send: the command is recorded as pending, then its frame is encoded and queued (R175). -/
def issue (c : Config) (code : Byte) (isWrite : Bool) (payload : List Byte) (s : State) : State :=
  ({ s with
      pending := some { code := code, isWrite := isWrite, resends := 0 }
      acc := accAtIssue c code s.acc
      session := .awaiting }.txEnqueue (encodeFrame c code isWrite payload)).returnStatus .accepted

/-- `send_command`, its guards in the order of R180: unknown code (R178), payload too long (R179), not connected (R177),
busy (R176), accepted (R175). -/
def sendCommand (c : Config) (code : Byte) (isWrite : Bool) (payload : List Byte) (s : State) : State :=
  if code ∉ c.codes then s.refuse .unknownCommand
  else if maxPayload < payload.length then s.refuse .payloadTooLong
  else
    match s.session with
    | .disconnected => s.turnAway .notConnected
    | .connecting => s.turnAway .notConnected
    | .awaiting => s.turnAway .busy
    | .idle => issue c code isWrite payload s

/-- PING, read form (R77, R137). -/
def execPingRead (payload : List Byte) (s : State) : Host.Outcome State Fault Refusal :=
  .next (sendCommand Config.device codePing false payload s)

/-- PING, write form (R77, R137). -/
def execPingWrite (payload : List Byte) (s : State) : Host.Outcome State Fault Refusal :=
  .next (sendCommand Config.device codePing true payload s)

/-- FW_REV, read form (R77, R132). -/
def execFwRevRead (payload : List Byte) (s : State) : Host.Outcome State Fault Refusal :=
  .next (sendCommand Config.device Config.device.codeFwRev false payload s)

/-- FW_REV, write form (R77, R132). -/
def execFwRevWrite (payload : List Byte) (s : State) : Host.Outcome State Fault Refusal :=
  .next (sendCommand Config.device Config.device.codeFwRev true payload s)

/-- FPGA_REV, read form (R77, R134). -/
def execFpgaRevRead (payload : List Byte) (s : State) : Host.Outcome State Fault Refusal :=
  .next (sendCommand Config.device Config.device.codeFpgaRev false payload s)

/-- FPGA_REV, write form (R77, R134). -/
def execFpgaRevWrite (payload : List Byte) (s : State) : Host.Outcome State Fault Refusal :=
  .next (sendCommand Config.device Config.device.codeFpgaRev true payload s)

/-- ACQUIRE, read form (R77, R150). -/
def execAcquireRead (payload : List Byte) (s : State) : Host.Outcome State Fault Refusal :=
  .next (sendCommand Config.device Config.device.codeAcquire false payload s)

/-- ACQUIRE, write form (R77, R150). -/
def execAcquireWrite (payload : List Byte) (s : State) : Host.Outcome State Fault Refusal :=
  .next (sendCommand Config.device Config.device.codeAcquire true payload s)

/-- OTHER(code), read form (R77, R138). -/
def execOtherRead (code : Byte) (payload : List Byte) (s : State) : Host.Outcome State Fault Refusal :=
  .next (sendCommand Config.device code false payload s)

/-- OTHER(code), write form (R77, R138). -/
def execOtherWrite (code : Byte) (payload : List Byte) (s : State) : Host.Outcome State Fault Refusal :=
  .next (sendCommand Config.device code true payload s)

end Sys2Proof.Machine
end

