-- ==== Sys2Proof/Machine/HostPort.lean ====
section
/-! DEFINITION. The Host's port operations (43_session.md rules R171, R174 to R181, R194, R195, R200). -/

namespace Sys2Proof.Machine

/-- `HOST_CONNECT(E)`: from `Disconnected` the transport starts `connect(E)` (R171); in any other state
`AlreadyConnected` (R174). -/
def hostConnect (endpoint : Endpoint) (s : State) : State :=
  match s.session with
  | .disconnected => ({ s with session := .connecting }.call (.connect endpoint)).returnStatus .accepted
  | .connecting => s.turnAway .alreadyConnected
  | .idle => s.turnAway .alreadyConnected
  | .awaiting => s.turnAway .alreadyConnected

/-- `HOST_TEARDOWN(kind)`: the three kinds act alike (R200); in a connection the session is torn down (R194), elsewhere
`NotConnected` (R195). -/
def hostTeardown (kind : TeardownKind) (s : State) : State :=
  match kind with
  | .disconnect | .refresh | .reconnect =>
    if connected s then (s.teardown .cancelled).returnStatus .accepted else s.turnAway .notConnected

/-- HOST_CONNECT, op 0x1. -/
def execHostConnect (endpoint : Endpoint) (s : State) : Host.Outcome State Fault Refusal :=
  .next (hostConnect endpoint s)

/-- HOST_SEND, op 0x2 (R175 to R181). -/
def execHostSend (code : Byte) (isWrite : Bool) (payload : List Byte) (s : State) : Host.Outcome State Fault Refusal :=
  .next (sendCommand Config.device code isWrite payload s)

/-- HOST_TEARDOWN, op 0x3. -/
def execHostTeardown (kind : TeardownKind) (s : State) : Host.Outcome State Fault Refusal :=
  .next (hostTeardown kind s)

end Sys2Proof.Machine
end

