-- ==== Sys2Proof/Machine/TransportPort.lean ====
section
/-! DEFINITION. The Transport's port operations (43_session.md rules R172, R173, R182, R183). One that is not enabled has no
step: it leaves the state as it is (log entry 3). -/

namespace Sys2Proof.Machine

/-- `T_CONNECT_OK(H)`: the connection exists and the listener runs, in one step (R172). -/
def connectOk (handle : Handle) (s : State) : State :=
  if connectResultEnabled s then { s with conn := some handle, listener := .running, session := .idle } else s

/-- `T_CONNECT_ERR`: back to `Disconnected`, with a trace and no `ListenerStopped` (R173). -/
def connectErr (s : State) : State :=
  if connectResultEnabled s then { s with session := .disconnected }.emit (.trace .transportFailureConnect) else s

/-- `T_TX_DONE(k)`: the oldest frame leaves the queue when all of it was written (R182), and any other count is a send
failure (R183). -/
def txDone (bytesWritten : Nat) (s : State) : State :=
  if connected s then
    match s.txq with
    | [] => s
    | frame :: rest =>
      if bytesWritten = frame.length then { s with txq := rest } else s.teardown .transportErrorSend
  else s

/-- `T_TX_ERR`: a send failure (R183). -/
def txErr (s : State) : State :=
  if txResultEnabled s then s.teardown .transportErrorSend else s

/-- T_CONNECT_OK, op 0x8. -/
def execConnectOk (handle : Handle) (s : State) : Host.Outcome State Fault Refusal := .next (connectOk handle s)

/-- T_CONNECT_ERR, op 0x9. -/
def execConnectErr (s : State) : Host.Outcome State Fault Refusal := .next (connectErr s)

/-- T_TX_DONE, op 0xA. -/
def execTxDone (bytesWritten : Nat) (s : State) : Host.Outcome State Fault Refusal := .next (txDone bytesWritten s)

/-- T_TX_ERR, op 0xB. -/
def execTxErr (s : State) : Host.Outcome State Fault Refusal := .next (txErr s)

end Sys2Proof.Machine
end

