-- ==== Sys2Proof/Machine/ListenerPort.lean ====
section
/-! DEFINITION. The Listener's port operations: the response multiplexer and the receive failure (43_session.md rules R184
to R191, R193, R197, R201). -/

namespace Sys2Proof.Machine

/-- A framed chunk, decoded, rejected or faulted (R187 to R190). -/
def framedChunk (c : Config) (p : Pending) (chunk : List Byte) (s : State) : State :=
  match decodeFramed c chunk p.code with
  | .decoded r => (s.emit (.commandCompleted p.code r)).endPending
  | .faulted f => s.raiseFault f
  | .rejected x => s.reject c p x

/-- A spectral chunk: its own samples are reported, and on completion the whole acquisition (R157, R191). -/
def spectralChunk (c : Config) (chunk : List Byte) (s : State) : State :=
  let after := accumulateChunk c s.acc chunk
  if acquisitionComplete c after.1 then
    { (s.emit (.spectralChunk after.2)).emit (.commandCompleted c.codeAcquire (.spectrum after.1.samples)) with
      acc := .empty }.endPending
  else { s.emit (.spectralChunk after.2) with acc := after.1 }

/-- The multiplexer: the pending command, never a byte of the chunk, selects the path (R185); with nothing pending the
chunk is traced and dropped (R197). -/
def dispatchChunk (c : Config) (chunk : List Byte) (s : State) : State :=
  match s.pending with
  | none => s.emit (.trace (.protocolViolation chunk))
  | some p => if p.code = c.codeAcquire then spectralChunk c chunk s else framedChunk c p chunk s

/-- `T_RX_CHUNK(chunk)` (R185): not enabled outside a connection or with the listener stopped (R201), nor for a chunk
longer than a receive can return (log entries 3 and 11). -/
def rxChunk (c : Config) (chunk : List Byte) (s : State) : State :=
  if rxEnabled s && chunkAdmitted c chunk then dispatchChunk c chunk s else s

/-- `T_RX_ERR`: a receive failure tears the session down (R193). -/
def rxErr (s : State) : State := if rxEnabled s then s.teardown .transportErrorReceive else s

/-- T_RX_CHUNK, op 0xC. -/
def execRxChunk (chunk : List Byte) (s : State) : Host.Outcome State Fault Refusal :=
  .next (rxChunk Config.device chunk s)

/-- T_RX_ERR, op 0xD. -/
def execRxErr (s : State) : Host.Outcome State Fault Refusal := .next (rxErr s)

end Sys2Proof.Machine
end

