-- ==== Sys2Proof/Machine/TimerPort.lean ====
section
/-! DEFINITION. The response timer's operation (43_session.md rule R192) and the reserved op codes (30_encoding.md rule
R91). -/

namespace Sys2Proof.Machine

/-- `TIMER_TIMEOUT`: refused in a block without a timer (R91); otherwise it ends a pending command, and has no step while
nothing is awaited (R192; log entry 3). -/
def timerTimeout (c : Config) (s : State) : State :=
  if c.timeoutEnabled then
    match s.session, s.pending with
    | .awaiting, some p => { s.emit (.commandRejected p.code .timeout) with acc := .empty }.endPending
    | _, _ => s
  else s.refuse .reservedOp

/-- TIMER_TIMEOUT, op 0xE. -/
def execTimerTimeout (s : State) : Host.Outcome State Fault Refusal := .next (timerTimeout Config.device s)

/-- Reserved op code 0x0 (R91). -/
def execReserved0 (s : State) : Host.Outcome State Fault Refusal := .next (s.refuse .reservedOp)

/-- Reserved op code 0x4 (R91). -/
def execReserved4 (s : State) : Host.Outcome State Fault Refusal := .next (s.refuse .reservedOp)

/-- Reserved op code 0x5 (R91). -/
def execReserved5 (s : State) : Host.Outcome State Fault Refusal := .next (s.refuse .reservedOp)

/-- Reserved op code 0x6 (R91). -/
def execReserved6 (s : State) : Host.Outcome State Fault Refusal := .next (s.refuse .reservedOp)

/-- Reserved op code 0x7 (R91). -/
def execReserved7 (s : State) : Host.Outcome State Fault Refusal := .next (s.refuse .reservedOp)

/-- Reserved op code 0xF (R91). -/
def execReservedF (s : State) : Host.Outcome State Fault Refusal := .next (s.refuse .reservedOp)

end Sys2Proof.Machine
end

