-- ==== Sys2Proof/Machine/Dispatch.lean ====
section
/-! DEFINITION. One arm per operation, each one call of that operation's meaning. -/

namespace Sys2Proof.Machine

def exec (i : Instr) (s : State) : Host.Outcome State Fault Refusal :=
  match i with
  | .pingRead payload => Sys2Proof.Machine.execPingRead payload s
  | .pingWrite payload => Sys2Proof.Machine.execPingWrite payload s
  | .fwRevRead payload => Sys2Proof.Machine.execFwRevRead payload s
  | .fwRevWrite payload => Sys2Proof.Machine.execFwRevWrite payload s
  | .fpgaRevRead payload => Sys2Proof.Machine.execFpgaRevRead payload s
  | .fpgaRevWrite payload => Sys2Proof.Machine.execFpgaRevWrite payload s
  | .acquireRead payload => Sys2Proof.Machine.execAcquireRead payload s
  | .acquireWrite payload => Sys2Proof.Machine.execAcquireWrite payload s
  | .otherRead code payload => Sys2Proof.Machine.execOtherRead code payload s
  | .otherWrite code payload => Sys2Proof.Machine.execOtherWrite code payload s
  | .hostConnect endpoint => Sys2Proof.Machine.execHostConnect endpoint s
  | .hostSend code isWrite payload => Sys2Proof.Machine.execHostSend code isWrite payload s
  | .hostTeardown kind => Sys2Proof.Machine.execHostTeardown kind s
  | .connectOk handle => Sys2Proof.Machine.execConnectOk handle s
  | .connectErr => Sys2Proof.Machine.execConnectErr s
  | .txDone bytesWritten => Sys2Proof.Machine.execTxDone bytesWritten s
  | .txErr => Sys2Proof.Machine.execTxErr s
  | .rxChunk chunk => Sys2Proof.Machine.execRxChunk chunk s
  | .rxErr => Sys2Proof.Machine.execRxErr s
  | .timerTimeout => Sys2Proof.Machine.execTimerTimeout s
  | .reserved0 => Sys2Proof.Machine.execReserved0 s
  | .reserved4 => Sys2Proof.Machine.execReserved4 s
  | .reserved5 => Sys2Proof.Machine.execReserved5 s
  | .reserved6 => Sys2Proof.Machine.execReserved6 s
  | .reserved7 => Sys2Proof.Machine.execReserved7 s
  | .reservedF => Sys2Proof.Machine.execReservedF s

end Sys2Proof.Machine
end

