-- ==== Sys2Proof/Machine/Step.lean ====
section
/-! DEFINITION. One step of the block: the next operation of the run is taken (20_memory.md rules R61, R64; log entries 2, 3
and 4). -/

namespace Sys2Proof.Machine

/-- The first offered operation is decoded and executed, as one atomic step (R61, R64). A command byte that is no command is
refused (log entry 17). With nothing offered the block does nothing on its own (R184, R241; log entry 4). -/
def step (s : State) : Host.Outcome State Fault Refusal :=
  match s.offers with
  | [] => .next s
  | o :: rest =>
    match decodeOffer Config.device o with
    | .ok i => exec i { s with offers := rest }
    | .error r => .next (rejectedOffer { s with offers := rest } r)

/-- The state in which the operation of a table word is the next one offered (fixed name of the host's check; log entries
2 and 6). -/
def State.withFetchWord (s : State) (_nbits w : Nat) : State := { s with offers := offerOfTableWord w :: s.offers }

end Sys2Proof.Machine
end

