-- ==== Sys2Proof/Safety.lean ====
section
/-! DEFINITION. What counts as a good state: the invariants of 10_state.md rule R33, the further invariants that the rules on
single fields give, and the marks that put a run outside every claim (R31, R32, R216, R217). -/

namespace Sys2Proof.Machine

/-- A run past a fault or a refusal is outside every claim (R216, R217). -/
abbrev State.Unmarked (s : State) : Prop := s.fault = none ∧ s.refused = false

/-- The four invariants of R33, in its order. -/
abbrev State.SessionInv (c : Config) (s : State) : Prop :=
  ((connected s = true ↔ s.conn ≠ none) ∧ (s.conn ≠ none ↔ s.listener = .running))
  ∧ (s.session = .awaiting ↔ s.pending ≠ none)
  ∧ (s.acc ≠ .empty → ∃ p ∈ s.pending, p.code = c.codeAcquire)
  ∧ (connected s = false → s.txq = [])

/-- A frame the encoder can have made: its length, its delimiters, its reserved and length bytes, the code of its command
byte, and its checksum (R71, R100, R102). -/
abbrev FrameShape (c : Config) (f : List Byte) : Prop :=
  6 ≤ f.length ∧ f.length ≤ 260 ∧ byteAt f 0 = 0x3C ∧ byteAt f (f.length - 1) = 0x3E
  ∧ byteAt f 1 = 0x00 ∧ (byteAt f 2).toNat + 5 = f.length ∧ codeOf (byteAt f 3) ∈ c.codes
  ∧ byteAt f (f.length - 2) = c.digest (slice f 1 (f.length - 2))

/-- The pending command's own rules: its code is a catalog code (R23), and its resends stay within the limit (R24, R189). -/
abbrev PendingShape (c : Config) (p : Pending) : Prop :=
  p.code ∈ c.codes ∧ ∀ k ∈ c.resendLimit, p.resends ≤ k

/-- The accumulator's own rules: no carry under `Drop` (R25, R152), and every two bytes counted gave at most one sample
(R151, R154). -/
abbrev AccShape (c : Config) (a : Acc) : Prop :=
  (c.oddByte = .drop → a.carry = none) ∧ 2 * a.samples.length + a.carry.toList.length ≤ a.byteCount

/-- An accumulator that holds anything belongs to an acquisition whose total is not reached yet (R155, R156). -/
abbrev AccUnfinished (c : Config) (a : Acc) : Prop :=
  a ≠ .empty → ∃ total ∈ c.acqTotalBytes, a.byteCount < total

/-- Every queued frame is one the encoder can have made (R30), and the pending command and the accumulator keep their
rules. -/
abbrev State.DataInv (c : Config) (s : State) : Prop :=
  (∀ f ∈ s.txq, FrameShape c f) ∧ (∀ p ∈ s.pending, PendingShape c p) ∧ AccShape c s.acc ∧ AccUnfinished c s.acc

end Sys2Proof.Machine
end

