-- ==== Sys2Proof/Certificates/Slice0/Obligations.lean ====
section
/-! DEFINITION. The statements for the provers, rule by rule of spec/. `Config.device` is the machine's configuration, whose
parameters nothing can evaluate (log entry 1); a statement that turns on a parameter is made for every configuration. The
fields `hostStatus`, `calls` and `offers` are the model's own (log entries 2, 7, 8, 19). -/

open Sys2Proof Sys2Proof.Machine

namespace Sys2Proof.Claims

/-- The outbound frame of R71, written out. -/
def frame (c : Config) (code : Byte) (isWrite : Bool) (payload : List Byte) : List Byte :=
  let covered := [0x00, BitVec.ofNat 8 (payload.length + 1), if isWrite then code ||| 0x80 else code] ++ payload
  0x3C :: covered ++ [c.digest covered, 0x3E]

/-- The accumulator with nothing in it (R25). -/
def emptyAcc : Acc := ⟨[], 0, none⟩

/-- The state after R175's pseudocode; the record of transport calls is left open. -/
def issued (c : Config) (code : Byte) (isWrite : Bool) (payload : List Byte) (s : State) (k : List TransportCall) : State :=
  { s with
    pending := some ⟨code, isWrite, 0⟩
    acc := if code = c.codeAcquire then emptyAcc else s.acc
    session := .awaiting
    txq := s.txq ++ [frame c code isWrite payload]
    hostStatus := some .accepted
    calls := k }

/-- The state after a send or connect turned away: the trace and the status, nothing else. -/
def turnedAway (r : HostStatus) (s : State) : State :=
  { s with events := s.events ++ [.trace (.hostRefused r)], hostStatus := some r }

/-- The state after R196's pseudocode; the record of transport calls is left open. -/
def tornDown (r : StopReason) (s : State) (k : List TransportCall) : State :=
  { s with
    session := .disconnected, pending := none, acc := emptyAcc, txq := [], listener := .stopped, conn := none
    events := s.events
      ++ (match s.pending with | some p => [.trace (.pendingAbandoned p.code)] | none => []) ++ [.listenerStopped r]
    calls := k }

/-- The state after R189's pseudocode; the record of transport calls is left open. -/
def resent (c : Config) (p : Pending) (x : RejectReason) (s : State) (k : List TransportCall) : State :=
  { s with
    events := s.events ++ [.commandRejected p.code x, .trace (.resent p.code)]
    pending := some { p with resends := p.resends + 1 }
    txq := s.txq ++ [frame c p.code (if c.resendWrite = .keep then p.isWrite else false) []]
    calls := k }

/-- The state after R190's pseudocode. -/
def limitReached (p : Pending) (x : RejectReason) (s : State) : State :=
  { s with events := s.events ++ [.commandRejected p.code x, .trace (.resendLimitReached p.code)] }

/-- The state after R191's pseudocode. -/
def spectral (c : Config) (chunk : List Byte) (s : State) : State :=
  let r := accumulateChunk c s.acc chunk
  if ∀ total ∈ c.acqTotalBytes, total ≤ r.1.byteCount then
    { s with
      events := s.events ++ [.spectralChunk r.2, .commandCompleted c.codeAcquire (.spectrum r.1.samples)]
      acc := emptyAcc, pending := none, session := .idle }
  else { s with events := s.events ++ [.spectralChunk r.2], acc := r.1 }

/-- The block is in a connection with its listener running, and the chunk is one a receive can return (R185). -/
def receives (c : Config) (chunk : List Byte) (s : State) : Prop :=
  (s.session = .idle ∨ s.session = .awaiting) ∧ s.listener = .running ∧ chunk.length ≤ c.rxMaxChunk

/-- A chunk of the inbound layout of R72 that carries a command byte, in a chunk of at least six bytes. -/
def framed (b : List Byte) (code : Byte) : Prop :=
  6 ≤ b.length ∧ b[0]? = some 0x3C ∧ b[b.length - 1]? = some 0x3E ∧ b[3]? = some code

/-- The chunk's checksum byte is the digest of the bytes between the start delimiter and it (R109). -/
def checksumRight (c : Config) (b : List Byte) : Prop := b[b.length - 2]? = some (c.digest (slice b 1 (b.length - 2)))

/-- The sends of the instruction set: `HOST_SEND` and the ten command forms. -/
def isSend : Instr → Bool
  | .pingRead _ | .pingWrite _ | .fwRevRead _ | .fwRevWrite _ | .fpgaRevRead _ | .fpgaRevWrite _ | .acquireRead _
  | .acquireWrite _ | .otherRead _ _ | .otherWrite _ _ | .hostSend _ _ _ => true
  | _ => false

/-- The state a teardown leaves in the session's own fields is the reset state's (R242). -/
def sessionFieldsReset (t : State) : Prop :=
  t.session = .disconnected ∧ t.pending = none ∧ t.acc = emptyAcc ∧ t.conn = none ∧ t.listener = .stopped ∧ t.txq = []

end Sys2Proof.Claims

open Sys2Proof.Claims

/-! ### Reset, steps, words -/

/-- R34, R240: every field after a block reset. -/
def Obligations.ResetLeavesEveryFieldAsStated : Prop :=
  State.reset.session = .disconnected ∧ State.reset.pending = none ∧ State.reset.acc = ⟨[], 0, none⟩
  ∧ State.reset.conn = none ∧ State.reset.listener = .stopped ∧ State.reset.txq = [] ∧ State.reset.events = []
  ∧ State.reset.fault = none ∧ State.reset.refused = false

/-- The run takes the first offered operation and executes it as one step; a command byte that is no command is refused;
with nothing offered nothing happens (log entries 2, 4, 17). -/
def Obligations.StepExecutesTheDecodedOffer : Prop :=
  (∀ s o rest i, s.offers = o :: rest → decodeOffer Config.device o = .ok i →
    step s = exec i { s with offers := rest })
  ∧ (∀ s o rest r, s.offers = o :: rest → decodeOffer Config.device o = .error r →
    step s = .next { s with offers := rest, refused := true })
  ∧ ∀ s, s.offers = [] → step s = .next s

/-- R90, R91, R77: the sixteen op codes with the operands of their lanes, the PING command bytes under every
configuration, and some command bytes of the test parameters. -/
def Obligations.WordsDecodeAsTheSpecEncodesThem : Prop :=
  (∀ x : Lanes,
    decodePort 0x0 x = .reserved0 ∧ decodePort 0x1 x = .hostConnect x.endpoint
    ∧ decodePort 0x2 x = .hostSend x.code x.isWrite x.payload ∧ decodePort 0x3 x = .hostTeardown x.kind
    ∧ decodePort 0x4 x = .reserved4 ∧ decodePort 0x5 x = .reserved5 ∧ decodePort 0x6 x = .reserved6
    ∧ decodePort 0x7 x = .reserved7 ∧ decodePort 0x8 x = .connectOk x.handle ∧ decodePort 0x9 x = .connectErr
    ∧ decodePort 0xA x = .txDone x.bytesWritten ∧ decodePort 0xB x = .txErr ∧ decodePort 0xC x = .rxChunk x.chunk
    ∧ decodePort 0xD x = .rxErr ∧ decodePort 0xE x = .timerTimeout ∧ decodePort 0xF x = .reservedF)
  ∧ (∀ c p, decodeCommand c 0x4B p = .ok (.pingRead p) ∧ decodeCommand c 0xCB p = .ok (.pingWrite p))
  ∧ decodeCommand Config.testParameters 0x90 [0xAA] = .ok (.fwRevWrite [0xAA])
  ∧ decodeCommand Config.testParameters 0x11 [] = .ok (.fpgaRevRead [])
  ∧ decodeCommand Config.testParameters 0x92 [] = .ok (.acquireWrite [])
  ∧ decodeCommand Config.testParameters 0xA0 [1, 2, 3] = .ok (.otherWrite 0x20 [1, 2, 3])

/-- The command-byte map (R80, which the spec marks as its own inference): a command byte is a command exactly when its code
is in the catalog, and then it lies in 0x0A..0x4C or in 0x8A..0xCC. -/
def Obligations.CommandBytesAreTheCatalogs : Prop :=
  ∀ c, c.Valid → ∀ b p,
    ((∃ i, decodeCommand c b p = .ok i) ↔ codeOf b ∈ c.codes)
    ∧ (∀ i, decodeCommand c b p = .ok i → (0x0A ≤ b ∧ b ≤ 0x4C) ∨ (0x8A ≤ b ∧ b ≤ 0xCC))

/-- R71, R74 to R77, R100: the frame of every well-formed command form is read back as that form with its payload. -/
def Obligations.OutboundFrameDecodesBack : Prop :=
  ∀ c, c.Valid → ∀ i f, i.wf c = true → frameOf c i = some f → decodeFrame c f = .ok i

/-- The other direction: bytes read as a command form are exactly the frame the encoder makes of it, so each frame has one
meaning. -/
def Obligations.DecodedFrameIsTheEncodersOwn : Prop :=
  ∀ c, c.Valid → ∀ b i, decodeFrame c b = .ok i → i.wf c = true ∧ frameOf c i = some b

/-- R22, R92, R210, R212, R213, R214, R216: the numeric codes. -/
def Obligations.EnumerationsHaveTheirCodes : Prop :=
  (SessionState.disconnected.code = 0 ∧ SessionState.connecting.code = 1 ∧ SessionState.idle.code = 2
    ∧ SessionState.awaiting.code = 3)
  ∧ (HostStatus.accepted.code = 0 ∧ HostStatus.busy.code = 1 ∧ HostStatus.notConnected.code = 2
    ∧ HostStatus.alreadyConnected.code = 3)
  ∧ (RejectReason.tooShort.code = 1 ∧ RejectReason.badDelimiters.code = 2 ∧ RejectReason.commandMismatch.code = 3
    ∧ RejectReason.checksumMismatch.code = 4 ∧ RejectReason.timeout.code = 5)
  ∧ (∀ chunk code r, (TraceKind.protocolViolation chunk).code = 1 ∧ (TraceKind.resent code).code = 2
    ∧ (TraceKind.resendLimitReached code).code = 3 ∧ (TraceKind.pendingAbandoned code).code = 4
    ∧ (TraceKind.hostRefused r).code = 5 ∧ TraceKind.transportFailureConnect.code = 6)
  ∧ (StopReason.cancelled.code = 1 ∧ StopReason.transportErrorSend.code = 2
    ∧ StopReason.transportErrorReceive.code = 3)
  ∧ (∀ code result reason samples stop kind, (Event.commandCompleted code result).code = 1
    ∧ (Event.commandRejected code reason).code = 2 ∧ (Event.spectralChunk samples).code = 3
    ∧ (Event.listenerStopped stop).code = 4 ∧ (Event.trace kind).code = 5)
  ∧ Fault.decodeRange.code = 1

/-! ### Frame codec -/

/-- R71, R112: the layout of an encoded frame, part by part. -/
def Obligations.EncodedFrameLayout : Prop :=
  ∀ c code w (p : List Byte), code ≤ 0x7F → p.length ≤ 254 →
    (encodeFrame c code w p).length = p.length + 6
    ∧ (encodeFrame c code w p)[0]? = some 0x3C ∧ (encodeFrame c code w p)[p.length + 5]? = some 0x3E
    ∧ (encodeFrame c code w p)[1]? = some 0x00
    ∧ (∃ len : Byte, (encodeFrame c code w p)[2]? = some len ∧ len.toNat = p.length + 1)
    ∧ (encodeFrame c code w p)[3]? = some (code ||| if w then 0x80 else 0x00)
    ∧ slice (encodeFrame c code w p) 4 (4 + p.length) = p
    ∧ (encodeFrame c code w p)[4 + p.length]? = some (c.digest (slice (encodeFrame c code w p) 1 (4 + p.length)))

/-- Two commands never share a frame (the last sentence of R102, which the spec marks as its own inference). -/
def Obligations.EncodeIsInjective : Prop :=
  ∀ c code code' w w' (p p' : List Byte), code ≤ 0x7F → code' ≤ 0x7F → p.length ≤ 254 → p'.length ≤ 254 →
    encodeFrame c code w p = encodeFrame c code' w' p' → code = code' ∧ w = w' ∧ p = p'

/-- R104: without the checksum test, what is accepted, and the fields of the accepted frame. -/
def Obligations.ValidateAcceptsExactlyFramedChunks : Prop :=
  ∀ c b expected, c.checkRxCrc = false →
    ((∃ f, validate c b expected = .ok f) ↔ framed b expected)
    ∧ ∀ f, validate c b expected = .ok f →
        b[1]? = some f.b1 ∧ b[2]? = some f.b2 ∧ b[3]? = some f.cmdByte ∧ f.payload = slice b 4 (b.length - 2)
        ∧ b[b.length - 2]? = some f.crc ∧ f.payload.length = b.length - 6

/-- R106, R108, R113: the four reasons, the first that applies winning. -/
def Obligations.ValidateReportsTheFirstDefect : Prop :=
  ∀ c (b : List Byte) expected,
    (b.length < 6 → validate c b expected = .reject .tooShort)
    ∧ (6 ≤ b.length → (b[0]? ≠ some 0x3C ∨ b[b.length - 1]? ≠ some 0x3E) →
        validate c b expected = .reject .badDelimiters)
    ∧ (6 ≤ b.length → b[0]? = some 0x3C → b[b.length - 1]? = some 0x3E → b[3]? ≠ some expected →
        validate c b expected = .reject .commandMismatch)
    ∧ (framed b expected → c.checkRxCrc = true → ¬checksumRight c b →
        validate c b expected = .reject .checksumMismatch)
    ∧ (framed b expected → c.checkRxCrc = false ∨ checksumRight c b → ∃ f, validate c b expected = .ok f)

/-- The round trip as corrected by C2 (R111, which the spec marks as its own inference). -/
def Obligations.ValidateReadsBackEncode : Prop :=
  ∀ c, c.Valid → ∀ code ∈ c.codes, ∀ p : List Byte, p.length ≤ 254 →
    validate c (encodeFrame c code false p) code =
      .ok ⟨0x00, BitVec.ofNat 8 (p.length + 1), code, p, c.digest ([0x00, BitVec.ofNat 8 (p.length + 1), code] ++ p)⟩
    ∧ validate c (encodeFrame c code true p) code = .reject .commandMismatch
    ∧ ∃ f, validate c (encodeFrame c code true p) (code ||| 0x80) = .ok f ∧ f.payload = p

/-! ### Response decoder -/

/-- The firmware revision is the five bytes that end two before the end of the chunk (R132), its bytes 1 to 4 in decimal
(R133). That the numbers are decimal from 10 up is the spec's decision D16 (log entry 13, DESIGN CHOICE). -/
def Obligations.FirmwareRevisionIsTheTail : Prop :=
  ∀ c, c.Valid → ∀ (b : List Byte) f, validate c b c.codeFwRev = .ok f → 7 ≤ b.length →
    ∃ x0 x1 x2 x3 x4 : Byte, slice b (b.length - 7) (b.length - 2) = [x0, x1, x2, x3, x4]
      ∧ decodeFramed c b c.codeFwRev = .decoded (.firmwareRev
          (Nat.toDigits 10 x1.toNat ++ ['.'] ++ Nat.toDigits 10 x2.toNat ++ ['.'] ++ Nat.toDigits 10 x3.toNat ++ ['.']
            ++ Nat.toDigits 10 x4.toNat))

/-- The FPGA revision is the seven bytes that end two before the end of the chunk, read as printable ASCII (R134, R135; the
range of printable codes is general knowledge by the spec's own mark, log entry 12). -/
def Obligations.FpgaRevisionIsTheTail : Prop :=
  ∀ c, c.Valid → ∀ (b : List Byte) f, validate c b c.codeFpgaRev = .ok f → 9 ≤ b.length →
    ∃ text : List Char, decodeFramed c b c.codeFpgaRev = .decoded (.fpgaRev (slice b (b.length - 9) (b.length - 2)) text)
      ∧ (slice b (b.length - 9) (b.length - 2)).length = 7
      ∧ text.length = 7
      ∧ ∀ (k : Nat) (v : Byte), (slice b (b.length - 9) (b.length - 2))[k]? = some v →
          text[k]? = some (if 0x20 ≤ v ∧ v ≤ 0x7E then Char.ofNat v.toNat else c.fpgaRender v)

/-- R136, R188: a fixed tail that would start before offset 0 is a fault, and the fault mark is all that changes. -/
def Obligations.ShortRevisionAnswerFaults : Prop :=
  ∀ c, c.Valid → ∀ (b : List Byte) f code s w n,
    (code = c.codeFwRev ∧ b.length = 6) ∨ (code = c.codeFpgaRev ∧ 6 ≤ b.length ∧ b.length ≤ 8) →
    validate c b code = .ok f →
    decodeFramed c b code = .faulted .decodeRange
    ∧ (receives c b s → s.pending = some ⟨code, w, n⟩ → rxChunk c b s = { s with fault := some .decodeRange })

/-- R137, R138: a validated PING answer is an acknowledgement whatever it holds, and any other command's answer is handed
on as its frame. -/
def Obligations.PingAndOtherAnswers : Prop :=
  ∀ c, c.Valid → ∀ b f,
    (validate c b codePing = .ok f → decodeFramed c b codePing = .decoded .ack)
    ∧ ∀ code ∈ c.otherCodes, validate c b code = .ok f → decodeFramed c b code = .decoded (.other f)

/-- Whether the pending command was a read or a write changes nothing in what a chunk's decoding reports (R139, which the
spec marks as its own inference). -/
def Obligations.ReadsAndWritesDecodeAlike : Prop :=
  ∀ c chunk (s : State) code n,
    (rxChunk c chunk { s with pending := some ⟨code, true, n⟩ }).events
      = (rxChunk c chunk { s with pending := some ⟨code, false, n⟩ }).events
    ∧ (rxChunk c chunk { s with pending := some ⟨code, true, n⟩ }).session
      = (rxChunk c chunk { s with pending := some ⟨code, false, n⟩ }).session
    ∧ (rxChunk c chunk { s with pending := some ⟨code, true, n⟩ }).fault
      = (rxChunk c chunk { s with pending := some ⟨code, false, n⟩ }).fault

/-! ### Spectral accumulator -/

/-- Half as many samples as bytes, each the little-endian value of its pair (R151, R55). That signed means two's complement,
which gives a negative sample its value, is general knowledge by the spec's own mark (R13; log entry 12, PRESUMED). -/
def Obligations.SamplesAreLittleEndianPairs : Prop :=
  ∀ b : List Byte,
    (pairSamples b).length = b.length / 2
    ∧ ∀ (k : Nat) (lo hi : Byte), b[2 * k]? = some lo → b[2 * k + 1]? = some hi →
        (pairSamples b)[k]?.map sext16 =
          some (if 256 * hi.toNat + lo.toNat < 0x8000 then (256 * hi.toNat + lo.toNat : Int)
            else (256 * hi.toNat + lo.toNat : Int) - 0x10000)

/-- R153: one chunk's accumulation. -/
def Obligations.AccumulateChunkAddsItsSamples : Prop :=
  ∀ c acc (chunk : List Byte),
    (accumulateChunk c acc chunk).2 = pairSamples (acc.carry.toList ++ chunk)
    ∧ (accumulateChunk c acc chunk).1.samples = acc.samples ++ (accumulateChunk c acc chunk).2
    ∧ (accumulateChunk c acc chunk).1.byteCount = acc.byteCount + chunk.length
    ∧ (c.oddByte = .drop → (accumulateChunk c acc chunk).1.carry = none)
    ∧ (c.oddByte = .carry → (accumulateChunk c acc chunk).1.carry =
        if (acc.carry.toList ++ chunk).length % 2 = 1 then (acc.carry.toList ++ chunk).getLast? else none)

/-- The samples of one acquisition, over any chunks: R158 (a), (b), (d) and the equation of (c), which the spec marks as its
own inference. -/
def Obligations.AcquisitionSamples : Prop :=
  ∀ c (chunks : List (List Byte)),
    (c.oddByte = .carry →
      (chunks.foldl (fun a chunk => (accumulateChunk c a chunk).1) emptyAcc).samples = pairSamples chunks.flatten
      ∧ (chunks.foldl (fun a chunk => (accumulateChunk c a chunk).1) emptyAcc).samples.length = chunks.flatten.length / 2)
    ∧ (c.oddByte = .drop →
      (chunks.foldl (fun a chunk => (accumulateChunk c a chunk).1) emptyAcc).samples
        = (chunks.map pairSamples).flatten)
    ∧ (chunks.foldl (fun a chunk => (accumulateChunk c a chunk).1) emptyAcc).byteCount = chunks.flatten.length
    ∧ (c.acqTotalBytes = none → ∀ a, acquisitionComplete c a = true)

/-! ### Host operations -/

/-- R171, R174: a connect opens from `Disconnected` and is turned away anywhere else. -/
def Obligations.ConnectOpensOrIsTurnedAway : Prop :=
  (∀ e s, s.session = .disconnected →
    ∃ k, exec (.hostConnect e) s = .next { s with session := .connecting, hostStatus := some .accepted, calls := k })
  ∧ ∀ e s, s.session ≠ .disconnected → exec (.hostConnect e) s = .next (turnedAway .alreadyConnected s)

/-- R175: an accepted send records the command, clears the accumulator for an ACQUIRE, and queues the encoded frame. -/
def Obligations.AcceptedSendIssues : Prop :=
  ∀ code w (p : List Byte) s, code ∈ Config.device.codes → p.length ≤ 254 → s.session = .idle →
    ∃ k, exec (.hostSend code w p) s = .next (issued Config.device code w p s k)

/-- R176 to R180: the guards of a send, the first that applies deciding. -/
def Obligations.SendGuardsInOrder : Prop :=
  ∀ code w (p : List Byte) s,
    (code ∉ Config.device.codes → exec (.hostSend code w p) s = .next { s with refused := true })
    ∧ (code ∈ Config.device.codes → 254 < p.length → exec (.hostSend code w p) s = .next { s with refused := true })
    ∧ (code ∈ Config.device.codes → p.length ≤ 254 → s.session = .disconnected ∨ s.session = .connecting →
        exec (.hostSend code w p) s = .next (turnedAway .notConnected s))
    ∧ (code ∈ Config.device.codes → p.length ≤ 254 → s.session = .awaiting →
        exec (.hostSend code w p) s = .next (turnedAway .busy s))

/-- The ten command forms issue their command from `Idle` (R175, R77; their reading as sends is log entry 5). -/
def Obligations.CommandFormsIssue : Prop :=
  ∀ (p : List Byte) s, p.length ≤ 254 → s.session = .idle →
    (∃ k, exec (.pingRead p) s = .next (issued Config.device 0x4B false p s k))
    ∧ (∃ k, exec (.pingWrite p) s = .next (issued Config.device 0x4B true p s k))
    ∧ (∃ k, exec (.fwRevRead p) s = .next (issued Config.device Config.device.codeFwRev false p s k))
    ∧ (∃ k, exec (.fwRevWrite p) s = .next (issued Config.device Config.device.codeFwRev true p s k))
    ∧ (∃ k, exec (.fpgaRevRead p) s = .next (issued Config.device Config.device.codeFpgaRev false p s k))
    ∧ (∃ k, exec (.fpgaRevWrite p) s = .next (issued Config.device Config.device.codeFpgaRev true p s k))
    ∧ (∃ k, exec (.acquireRead p) s = .next (issued Config.device Config.device.codeAcquire false p s k))
    ∧ (∃ k, exec (.acquireWrite p) s = .next (issued Config.device Config.device.codeAcquire true p s k))
    ∧ ∀ code, (code ∈ Config.device.codes →
        (∃ k, exec (.otherRead code p) s = .next (issued Config.device code false p s k))
        ∧ (∃ k, exec (.otherWrite code p) s = .next (issued Config.device code true p s k)))

/-- In every state, a command form does what `HOST_SEND` does with its code and flag (R86; log entry 5). -/
def Obligations.CommandFormsAreSends : Prop :=
  ∀ i code w p s, commandParts Config.device i = some (code, w, p) → exec i s = exec (.hostSend code w p) s

/-- R194, R195: a teardown request of any kind tears a connection down, and is turned away without one. -/
def Obligations.TeardownRequestTearsDown : Prop :=
  ∀ kind s,
    (s.session = .idle ∨ s.session = .awaiting →
      ∃ k, exec (.hostTeardown kind) s = .next { tornDown .cancelled s k with hostStatus := some .accepted })
    ∧ (s.session = .disconnected ∨ s.session = .connecting →
      exec (.hostTeardown kind) s = .next (turnedAway .notConnected s))

/-! ### Transport operations -/

/-- R172, R173: the two results of a connect. -/
def Obligations.ConnectResultsAreTaken : Prop :=
  ∀ h s, s.session = .connecting →
    exec (.connectOk h) s = .next { s with conn := some h, listener := .running, session := .idle }
    ∧ exec .connectErr s =
        .next { s with session := .disconnected, events := s.events ++ [.trace .transportFailureConnect] }

/-- R182, R183: a whole write takes the oldest frame out of the queue; a short write and a send error tear down. -/
def Obligations.SendResultsAreTaken : Prop :=
  ∀ s f rest, s.session = .idle ∨ s.session = .awaiting → s.txq = f :: rest →
    exec (.txDone f.length) s = .next { s with txq := rest }
    ∧ (∀ n, n ≠ f.length → ∃ k, exec (.txDone n) s = .next (tornDown .transportErrorSend s k))
    ∧ ∃ k, exec .txErr s = .next (tornDown .transportErrorSend s k)

/-! ### Listener operations -/

/-- R197: a chunk with nothing pending is traced and dropped. -/
def Obligations.UnexpectedChunkIsTraced : Prop :=
  ∀ chunk s, receives Config.device chunk s → s.pending = none →
    exec (.rxChunk chunk) s = .next { s with events := s.events ++ [.trace (.protocolViolation chunk)] }

/-- R191: a chunk for a pending ACQUIRE is accumulated and reported, and completes by the policy. -/
def Obligations.SpectralChunkIsAccumulated : Prop :=
  ∀ chunk s p, receives Config.device chunk s → s.pending = some p → p.code = Config.device.codeAcquire →
    exec (.rxChunk chunk) s = .next (spectral Config.device chunk s)

/-- A decoded answer completes the command (the first case of R187). The operation is its meaning under the device's configuration, and the
meaning is stated for every configuration. -/
def Obligations.DecodedAnswerCompletes : Prop :=
  (∀ chunk s, exec (.rxChunk chunk) s = .next (rxChunk Config.device chunk s))
  ∧ ∀ c chunk s p r, receives c chunk s → s.pending = some p → p.code ≠ c.codeAcquire →
      decodeFramed c chunk p.code = .decoded r →
      rxChunk c chunk s =
        { s with events := s.events ++ [.commandCompleted p.code r], pending := none, session := .idle }

/-- R189, R190: a rejected chunk is reported, and within the limit the command is sent once more with no payload. -/
def Obligations.RejectedChunkIsResent : Prop :=
  ∀ c chunk s p x, receives c chunk s → s.pending = some p → p.code ≠ c.codeAcquire →
    validate c chunk p.code = .reject x →
    (c.resendLimit = none → ∃ k, rxChunk c chunk s = resent c p x s k)
    ∧ (∀ n, c.resendLimit = some n → p.resends < n → ∃ k, rxChunk c chunk s = resent c p x s k)
    ∧ (∀ n, c.resendLimit = some n → n ≤ p.resends → rxChunk c chunk s = limitReached p x s)

/-- R105, R189 and R190 at the operation itself: a chunk shorter than a frame is rejected with `TooShort`, and the limit
decides about the resend. -/
def Obligations.ShortChunkIsRejected : Prop :=
  ∀ chunk s p, receives Config.device chunk s → s.pending = some p → p.code ≠ Config.device.codeAcquire →
    chunk.length < 6 →
    ∃ k, exec (.rxChunk chunk) s = .next
      (if ∀ n ∈ Config.device.resendLimit, p.resends < n then resent Config.device p .tooShort s k
        else limitReached p .tooShort s)

/-- R193: a receive failure tears the session down. -/
def Obligations.ReceiveFailureTearsDown : Prop :=
  ∀ s, s.session = .idle ∨ s.session = .awaiting → s.listener = .running →
    ∃ k, exec .rxErr s = .next (tornDown .transportErrorReceive s k)

/-- R186: what a chunk reports depends on the chunk and the pending command, on no earlier chunk or queued frame, as long
as the command is not an acquisition. -/
def Obligations.ChunksAreJudgedAlone : Prop :=
  ∀ c chunk s s', s.pending = s'.pending → s.session = s'.session → s.listener = s'.listener →
    (∀ p ∈ s.pending, p.code ≠ c.codeAcquire) →
    ∃ es, (rxChunk c chunk s).events = s.events ++ es ∧ (rxChunk c chunk s').events = s'.events ++ es
      ∧ (rxChunk c chunk s).pending = (rxChunk c chunk s').pending
      ∧ (rxChunk c chunk s).session = (rxChunk c chunk s').session

/-- R219: a chunk draws at most one `CommandRejected` and at most one resend. -/
def Obligations.OneRejectionPerChunk : Prop :=
  ∀ c chunk s, ∃ es, (rxChunk c chunk s).events = s.events ++ es
    ∧ (es.filter fun e => match e with | .commandRejected _ _ => true | _ => false).length ≤ 1
    ∧ ((rxChunk c chunk s).txq = s.txq ∨ ∃ f, (rxChunk c chunk s).txq = s.txq ++ [f] ∧ f.length = 6)

/-! ### Timer and reserved operations -/

/-- R192: the timeout ends the pending command in a block with a timer, and is refused in one without. -/
def Obligations.TimeoutEndsTheCommand : Prop :=
  (∀ s p, s.session = .awaiting → s.pending = some p →
    exec .timerTimeout s = .next
      (if Config.device.timeoutEnabled = true then
        { s with
          events := s.events ++ [.commandRejected p.code .timeout], pending := none, acc := emptyAcc, session := .idle }
      else { s with refused := true }))
  ∧ (∀ s, exec .timerTimeout s = .next (timerTimeout Config.device s))
  ∧ (∀ c s p, c.timeoutEnabled = true → s.session = .awaiting → s.pending = some p →
      timerTimeout c s =
        { s with
          events := s.events ++ [.commandRejected p.code .timeout], pending := none, acc := emptyAcc, session := .idle })
  ∧ ∀ c s, c.timeoutEnabled = false → timerTimeout c s = { s with refused := true }

/-- R91: the reserved op codes, and the timeout of a block without a timer, set the refusal mark and nothing else. -/
def Obligations.ReservedOperationsAreRefused : Prop :=
  (∀ s, exec .reserved0 s = .next { s with refused := true } ∧ exec .reserved4 s = .next { s with refused := true }
    ∧ exec .reserved5 s = .next { s with refused := true } ∧ exec .reserved6 s = .next { s with refused := true }
    ∧ exec .reserved7 s = .next { s with refused := true } ∧ exec .reservedF s = .next { s with refused := true })
  ∧ (∀ op ∈ [(0x0 : BitVec 4), 0x4, 0x5, 0x6, 0x7, 0xF], ∀ x s,
      exec (decodePort op x) s = .next { s with refused := true })
  ∧ (∀ s, exec .timerTimeout s = .next (timerTimeout Config.device s))
  ∧ ∀ c s, c.timeoutEnabled = false → timerTimeout c s = { s with refused := true }

/-- An operation that is not enabled has no step: the state stays as it was (R201, R218; the model's form of "no step" is
log entry 3, and of a chunk too long log entry 11). -/
def Obligations.NotEnabledHasNoStep : Prop :=
  (∀ h s, s.session ≠ .connecting → exec (.connectOk h) s = .next s ∧ exec .connectErr s = .next s)
  ∧ (∀ n s, s.session = .disconnected ∨ s.session = .connecting ∨ s.txq = [] →
      exec (.txDone n) s = .next s ∧ exec .txErr s = .next s)
  ∧ (∀ chunk s, s.session = .disconnected ∨ s.session = .connecting ∨ s.listener = .stopped →
      exec (.rxChunk chunk) s = .next s ∧ exec .rxErr s = .next s)
  ∧ (∀ c (chunk : List Byte) s, c.rxMaxChunk < chunk.length → rxChunk c chunk s = s)
  ∧ ∀ c s, c.timeoutEnabled = true → s.session ≠ .awaiting → timerTimeout c s = s

/-! ### Frames: what each operation leaves alone -/

/-- A send writes neither the connection, nor the listener, nor the fault mark, and the fields of a command only when it
issues one from `Idle` (R175 to R180). -/
def Obligations.SendFrame : Prop :=
  ∀ i s t, isSend i = true → exec i s = .next t →
    t.conn = s.conn ∧ t.listener = s.listener ∧ t.fault = s.fault ∧ t.offers = s.offers
    ∧ (s.session ≠ .idle → t.session = s.session ∧ t.pending = s.pending ∧ t.acc = s.acc ∧ t.txq = s.txq
        ∧ t.calls = s.calls)
    ∧ (t.session = s.session → t.pending = s.pending ∧ t.acc = s.acc ∧ t.txq = s.txq ∧ t.calls = s.calls)
    ∧ (t.session ≠ s.session → t.events = s.events ∧ t.refused = s.refused)

/-- The connection operations leave the command, the accumulator, the queue and the marks alone (R171 to R174). -/
def Obligations.ConnectionFrame : Prop :=
  ∀ i s t, ((∃ e, i = .hostConnect e) ∨ (∃ h, i = .connectOk h) ∨ i = .connectErr) → exec i s = .next t →
    t.pending = s.pending ∧ t.acc = s.acc ∧ t.txq = s.txq ∧ t.fault = s.fault ∧ t.refused = s.refused
    ∧ t.offers = s.offers
    ∧ ((∀ h, i ≠ .connectOk h) → t.conn = s.conn ∧ t.listener = s.listener)
    ∧ ((∀ e, i ≠ .hostConnect e) → t.hostStatus = s.hostStatus ∧ t.calls = s.calls)

/-- The operations that can tear down leave the marks alone, and return a status only to the host (R182, R183, R193 to
R196). -/
def Obligations.TeardownFrame : Prop :=
  ∀ i s t, ((∃ kind, i = .hostTeardown kind) ∨ (∃ n, i = .txDone n) ∨ i = .txErr ∨ i = .rxErr) → exec i s = .next t →
    t.fault = s.fault ∧ t.refused = s.refused ∧ t.offers = s.offers
    ∧ ((∀ kind, i ≠ .hostTeardown kind) → t.hostStatus = s.hostStatus)
    ∧ (t.session = s.session → t.pending = s.pending ∧ t.acc = s.acc ∧ t.conn = s.conn ∧ t.listener = s.listener)

/-- A chunk leaves the connection, the refusal mark and the status alone, and the accumulator too unless an ACQUIRE is
pending (R185 to R191, R197). -/
def Obligations.ReceiveFrame : Prop :=
  ∀ chunk s t, exec (.rxChunk chunk) s = .next t →
    t.conn = s.conn ∧ t.listener = s.listener ∧ t.refused = s.refused ∧ t.hostStatus = s.hostStatus
    ∧ t.offers = s.offers
    ∧ ((∀ p ∈ s.pending, p.code ≠ Config.device.codeAcquire) → t.acc = s.acc)
    ∧ ((∃ p ∈ s.pending, p.code = Config.device.codeAcquire) →
        t.txq = s.txq ∧ t.calls = s.calls ∧ t.fault = s.fault)

/-- The timer and the reserved codes leave the connection, the queue, the status and the fault mark alone (R91, R192). -/
def Obligations.TimerAndReservedFrame : Prop :=
  ∀ i s t, i ∈ [Instr.timerTimeout, .reserved0, .reserved4, .reserved5, .reserved6, .reserved7, .reservedF] →
    exec i s = .next t →
    t.conn = s.conn ∧ t.listener = s.listener ∧ t.txq = s.txq ∧ t.fault = s.fault ∧ t.hostStatus = s.hostStatus
    ∧ t.calls = s.calls ∧ t.offers = s.offers
    ∧ (i ≠ .timerTimeout → t.session = s.session ∧ t.pending = s.pending ∧ t.acc = s.acc ∧ t.events = s.events)

/-! ### The whole machine -/

/-- R170: the session moves only along the listed transitions. -/
def Obligations.SessionMovesOnlyAsListed : Prop :=
  ∀ i s t, exec i s = .next t → t.session ≠ s.session →
    (s.session = .disconnected ∧ t.session = .connecting ∧ ∃ e, i = .hostConnect e)
    ∨ (s.session = .connecting ∧ t.session = .idle ∧ ∃ h, i = .connectOk h)
    ∨ (s.session = .connecting ∧ t.session = .disconnected ∧ i = .connectErr)
    ∨ (s.session = .idle ∧ t.session = .awaiting ∧ isSend i = true)
    ∨ (s.session = .awaiting ∧ t.session = .idle ∧ ((∃ chunk, i = .rxChunk chunk) ∨ i = .timerTimeout))
    ∨ ((s.session = .idle ∨ s.session = .awaiting) ∧ t.session = .disconnected
        ∧ ((∃ kind, i = .hostTeardown kind) ∨ i = .rxErr ∨ i = .txErr ∨ ∃ n, i = .txDone n))

/-- R29: no step removes or reorders an event. -/
def Obligations.EventsOnlyGrow : Prop := ∀ s t, step s = .next t → s.events <+: t.events

/-- R31, R32: no step clears the fault mark or the refusal mark. -/
def Obligations.MarksAreNeverCleared : Prop :=
  ∀ s t, step s = .next t → (∀ r, s.fault = some r → t.fault = some r) ∧ (s.refused = true → t.refused = true)

/-- By R33 (2), the spec's own inference, and R176: while a command is pending, an operation keeps it, counts one resend more, or ends it; none puts
another command in its place. -/
def Obligations.PendingIsNeverOverwritten : Prop :=
  ∀ i s t p q, s.SessionInv Config.device → exec i s = .next t → s.pending = some p → t.pending = some q →
    q.code = p.code ∧ q.isWrite = p.isWrite ∧ (q.resends = p.resends ∨ q.resends = p.resends + 1)

/-- R35: which agent's operations write which fields. The host sets the pending command only from none, or clears it on the
way to `Disconnected`; the listener sets none, and with one pending only clears it or writes its resends; the transport clears
it on the way to `Disconnected` and else leaves it, and leaves the accumulator alone while the session lasts, and the marks
and the host's status always. -/
def Obligations.AgentsKeepTheirAccessRights : Prop :=
  ∀ i s t, s.SessionInv Config.device → exec i s = .next t →
    (i.agent = some .host → t.pending ≠ s.pending → s.pending = none ∨ (t.pending = none ∧ t.session = .disconnected))
    ∧ (i.agent = some .listener → s.pending = none → t.pending = none)
    ∧ (i.agent = some .listener → ∀ p, s.pending = some p →
        t.pending = none ∨ ∃ n, t.pending = some { p with resends := n })
    ∧ (i.agent = some .transport → t.pending ≠ s.pending → t.pending = none ∧ t.session = .disconnected)
    ∧ (i.agent = some .transport → t.session ≠ .disconnected → t.acc = s.acc)
    ∧ (i.agent = some .transport → t.fault = s.fault ∧ t.refused = s.refused ∧ t.hostStatus = s.hostStatus)

/-- The transmit queue is first in, first out (R30; R65 (a), the spec's own inference): an operation appends one frame, takes the oldest, empties it on
the way to `Disconnected`, or leaves it. -/
def Obligations.TransmitQueueIsFifo : Prop :=
  ∀ i s t, exec i s = .next t →
    t.txq = s.txq ∨ (∃ f, t.txq = s.txq ++ [f]) ∨ (∃ f, s.txq = f :: t.txq) ∨ (t.txq = [] ∧ t.session = .disconnected)

/-- By R242, the spec's own inference, and R196: a step out of a connection puts the session's fields at their reset values and keeps the history and the
marks. -/
def Obligations.TeardownIsNotAReset : Prop :=
  ∀ i s t, exec i s = .next t → s.session = .idle ∨ s.session = .awaiting → t.session = .disconnected →
    sessionFieldsReset t ∧ s.events <+: t.events ∧ t.fault = s.fault ∧ t.refused = s.refused

/-- R228: of the recorded calls, which are connect, send and close, the transport gets exactly those the rules hand it: a
connect when the session starts connecting, a send for each queued frame, a close when the handle is given up, and nothing
else. The record is log entry 8; that the listen loop's receives are no part of it is log entry 19 (DESIGN CHOICE). -/
def Obligations.CallsFollowTheState : Prop :=
  ∀ i s t, exec i s = .next t →
    (t.calls = s.calls → t.txq.length ≤ s.txq.length ∧ (∀ h, s.conn = some h → t.conn ≠ none))
    ∧ (∀ f, t.txq = s.txq ++ [f] → t.calls = s.calls ++ [.send f])
    ∧ (∀ h, s.conn = some h → t.conn = none → t.calls = s.calls ++ [.close h])
    ∧ (∀ e, i = .hostConnect e → s.session = .disconnected → t.calls = s.calls ++ [.connect e])
    ∧ ((∀ f, t.txq ≠ s.txq ++ [f]) → (s.conn ≠ none → t.conn ≠ none) →
        ((∃ e, i = .hostConnect e) → s.session ≠ .disconnected) → t.calls = s.calls)

/-- By R244, the spec's own inference: the bring-up order ends with a command accepted and its frame queued, the listener already running. -/
def Obligations.BringUpAcceptsACommand : Prop :=
  ∀ e h code w (p : List Byte), code ∈ Config.device.codes → p.length ≤ 254 →
    ∃ a b d, exec (.hostConnect e) State.reset = .next a ∧ exec (.connectOk h) a = .next b
      ∧ exec (.hostSend code w p) b = .next d
      ∧ b.listener = .running ∧ b.txq = [] ∧ d.session = .awaiting ∧ d.pending = some ⟨code, w, 0⟩
      ∧ d.txq = [frame Config.device code w p] ∧ d.events = []

/-- At the reset state, by R241, the spec's own inference: only a connect moves the session, a send and a teardown return
`NotConnected`, and no transport or listener operation is enabled (that one not enabled answers the same state is log
entry 3, DEDUCED). -/
def Obligations.ResetWaitsForAConnect : Prop :=
  (∀ i t, exec i State.reset = .next t → t.session ≠ .disconnected → ∃ e, i = .hostConnect e)
  ∧ (∀ code w (p : List Byte), code ∈ Config.device.codes → p.length ≤ 254 →
      exec (.hostSend code w p) State.reset = .next (turnedAway .notConnected State.reset))
  ∧ (∀ kind, exec (.hostTeardown kind) State.reset = .next (turnedAway .notConnected State.reset))
  ∧ ∀ i, i.agent = some .transport ∨ i.agent = some .listener → exec i State.reset = .next State.reset

/-- By R199, the spec's own inference: receiving is not blocked by frames in flight: with any other transmit queue the chunk has the same effect, and
appends the same frames. -/
def Obligations.ReceivingIgnoresTheQueue : Prop :=
  ∀ c chunk s q, ∃ added, (rxChunk c chunk s).txq = s.txq ++ added
    ∧ rxChunk c chunk { s with txq := q } = { rxChunk c chunk s with txq := q ++ added }

/-- The reset state meets the session invariant of R33, the spec's own inference, and the data invariant. -/
def Obligations.ResetMeetsTheInvariants : Prop :=
  ∀ c, State.reset.SessionInv c ∧ State.reset.DataInv c

/-- Every step keeps the four session invariants of R33, which the spec marks as its own inference. -/
def Obligations.EveryStepKeepsTheSession : Prop :=
  ∀ s t, s.SessionInv Config.device → step s = .next t → t.SessionInv Config.device

/-- R23, R24, R25, R30, R152, R155: every step keeps the queued frames, the pending command and the accumulator within
their rules. -/
def Obligations.EveryStepKeepsTheData : Prop :=
  ∀ s t, s.DataInv Config.device → step s = .next t → t.DataInv Config.device
end

