-- ==== Sys2Proof/Laws/Bytes.lean ====
section
/-! SUPPORT. The byte-level facts: slices, command bytes, the parts of an encoded frame, and the length of a chunk's samples. -/

namespace Sys2Proof

theorem length_slice (b : List Byte) (lo hi : Nat) : (slice b lo hi).length = min hi b.length - lo := by
  simp [slice]

/-- The middle of three parts is the slice between them. -/
theorem slice_middle (u v w : List Byte) : slice (u ++ v ++ w) u.length (u.length + v.length) = v := by
  simp [slice, List.take_append]

theorem length_frameBody (code : Byte) (isWrite : Bool) (payload : List Byte) :
    (frameBody code isWrite payload).length = payload.length + 3 := by
  simp [frameBody]

theorem length_encodeFrame (c : Config) (code : Byte) (isWrite : Bool) (payload : List Byte) :
    (encodeFrame c code isWrite payload).length = payload.length + 6 := by
  simp [encodeFrame, length_frameBody]

/-- A code of the catalog's range is what is left of its command byte without the write flag (R74). -/
theorem codeOf_commandByte (code : Byte) (isWrite : Bool) (h : code ≤ 0x4C) : codeOf (commandByte code isWrite) = code := by
  revert code isWrite; decide

/-- Bit 7 of a command byte is the write flag (R74). -/
theorem isWriteOf_commandByte (code : Byte) (isWrite : Bool) (h : code ≤ 0x4C) :
    isWriteOf (commandByte code isWrite) = isWrite := by
  revert code isWrite; decide

/-- For a catalog code, setting bit 7 and adding 0x80 are the same (R11). -/
theorem or_eq_add_of_le (code : Byte) (h : code ≤ 0x7F) : code ||| 0x80 = code + 0x80 := by
  revert code; decide

namespace Machine

theorem length_pairSamples (b : List Byte) : (pairSamples b).length = b.length / 2 := by
  induction b using pairSamples.induct with
  | case1 lo hi rest ih => simp [pairSamples, ih]; omega
  | case2 x => simp [pairSamples]
  | case3 => simp [pairSamples]

/-- An even number of bytes pairs up on its own, whatever follows. -/
theorem pairSamples_append (u v : List Byte) (h : u.length % 2 = 0) :
    pairSamples (u ++ v) = pairSamples u ++ pairSamples v := by
  induction u using pairSamples.induct with
  | case1 lo hi rest ih => simp [pairSamples, ih (by simp only [List.length_cons] at h; omega)]
  | case2 x => simp at h
  | case3 => simp [pairSamples]

end Machine
end Sys2Proof
end

