-- ==== Sys2Proof/Laws/Config.lean ====
section
/-! SUPPORT. The configuration meets the constraints of 00_scope.md rule R10, whatever parameters were chosen. -/

namespace Sys2Proof

theorem Config.testParameters_valid : Config.testParameters.Valid := by decide

theorem Config.device_valid : Config.device.Valid := by
  unfold Config.device
  split
  · assumption
  · exact Config.testParameters_valid

theorem Config.Valid.codes_le {c : Config} (h : c.Valid) {code : Byte} (m : code ∈ c.codes) : code ≤ 0x4C :=
  (h.2.1 code m).2

theorem Config.Valid.codes_ge {c : Config} (h : c.Valid) {code : Byte} (m : code ∈ c.codes) : 0x0A ≤ code :=
  (h.2.1 code m).1

theorem Config.codePing_mem (c : Config) : codePing ∈ c.codes := by simp [codes]

theorem Config.codeFwRev_mem (c : Config) : c.codeFwRev ∈ c.codes := by simp [codes]

theorem Config.codeFpgaRev_mem (c : Config) : c.codeFpgaRev ∈ c.codes := by simp [codes]

theorem Config.codeAcquire_mem (c : Config) : c.codeAcquire ∈ c.codes := by simp [codes]

theorem Config.otherCodes_mem (c : Config) {code : Byte} (m : code ∈ c.otherCodes) : code ∈ c.codes := by
  simp [codes, m]

/-- The named codes differ from one another and from every other code (R10). -/
theorem Config.Valid.distinct {c : Config} (h : c.Valid) :
    (codePing ≠ c.codeFwRev ∧ codePing ≠ c.codeFpgaRev ∧ codePing ≠ c.codeAcquire ∧ codePing ∉ c.otherCodes)
    ∧ (c.codeFwRev ≠ c.codeFpgaRev ∧ c.codeFwRev ≠ c.codeAcquire ∧ c.codeFwRev ∉ c.otherCodes)
    ∧ (c.codeFpgaRev ≠ c.codeAcquire ∧ c.codeFpgaRev ∉ c.otherCodes)
    ∧ c.codeAcquire ∉ c.otherCodes := by
  have := h.1
  simp only [codes, List.cons_append, List.nil_append, List.nodup_cons, List.mem_cons, not_or] at this
  tauto

/-- The command byte of a catalog code is looked up by that code, and its form by the write flag (R74, R77, R80). -/
theorem decodeCommand_commandByte {c : Config} (h : c.Valid) {code : Byte} (m : code ∈ c.codes) (w : Bool)
    (p : List Byte) :
    decodeCommand c (commandByte code w) p =
      if code = codePing then .ok (if w then .pingWrite p else .pingRead p)
      else if code = c.codeFwRev then .ok (if w then .fwRevWrite p else .fwRevRead p)
      else if code = c.codeFpgaRev then .ok (if w then .fpgaRevWrite p else .fpgaRevRead p)
      else if code = c.codeAcquire then .ok (if w then .acquireWrite p else .acquireRead p)
      else .ok (if w then .otherWrite code p else .otherRead code p) := by
  have le := h.codes_le m
  have ge := h.codes_ge m
  have inRange : ¬(code < 0x0A ∨ 0x4C < code) := by bv_omega
  have others : code ≠ codePing → code ≠ c.codeFwRev → code ≠ c.codeFpgaRev → code ≠ c.codeAcquire →
      code ∈ c.otherCodes := by
    simp only [Config.codes, List.cons_append, List.nil_append, List.mem_cons] at m
    tauto
  rw [decodeCommand, codeOf_commandByte code w le, isWriteOf_commandByte code w le, if_neg inRange]
  repeat' split
  all_goals first | rfl | simp_all

end Sys2Proof
end

