-- ==== Sys2Proof/Laws/State.lean ====
section
/-! SUPPORT. One lemma per field for each primitive update of the state, so that no proof unfolds a record update. -/

namespace Sys2Proof.Machine

variable (s : State)

@[simp] theorem State.emit_session (e : Event) : (s.emit e).session = s.session := rfl
@[simp] theorem State.emit_pending (e : Event) : (s.emit e).pending = s.pending := rfl
@[simp] theorem State.emit_acc (e : Event) : (s.emit e).acc = s.acc := rfl
@[simp] theorem State.emit_conn (e : Event) : (s.emit e).conn = s.conn := rfl
@[simp] theorem State.emit_listener (e : Event) : (s.emit e).listener = s.listener := rfl
@[simp] theorem State.emit_events (e : Event) : (s.emit e).events = s.events ++ [e] := rfl
@[simp] theorem State.emit_txq (e : Event) : (s.emit e).txq = s.txq := rfl
@[simp] theorem State.emit_fault (e : Event) : (s.emit e).fault = s.fault := rfl
@[simp] theorem State.emit_refused (e : Event) : (s.emit e).refused = s.refused := rfl
@[simp] theorem State.emit_hostStatus (e : Event) : (s.emit e).hostStatus = s.hostStatus := rfl
@[simp] theorem State.emit_calls (e : Event) : (s.emit e).calls = s.calls := rfl
@[simp] theorem State.emit_offers (e : Event) : (s.emit e).offers = s.offers := rfl

@[simp] theorem State.call_session (k : TransportCall) : (s.call k).session = s.session := rfl
@[simp] theorem State.call_pending (k : TransportCall) : (s.call k).pending = s.pending := rfl
@[simp] theorem State.call_acc (k : TransportCall) : (s.call k).acc = s.acc := rfl
@[simp] theorem State.call_conn (k : TransportCall) : (s.call k).conn = s.conn := rfl
@[simp] theorem State.call_listener (k : TransportCall) : (s.call k).listener = s.listener := rfl
@[simp] theorem State.call_events (k : TransportCall) : (s.call k).events = s.events := rfl
@[simp] theorem State.call_txq (k : TransportCall) : (s.call k).txq = s.txq := rfl
@[simp] theorem State.call_fault (k : TransportCall) : (s.call k).fault = s.fault := rfl
@[simp] theorem State.call_refused (k : TransportCall) : (s.call k).refused = s.refused := rfl
@[simp] theorem State.call_hostStatus (k : TransportCall) : (s.call k).hostStatus = s.hostStatus := rfl
@[simp] theorem State.call_calls (k : TransportCall) : (s.call k).calls = s.calls ++ [k] := rfl
@[simp] theorem State.call_offers (k : TransportCall) : (s.call k).offers = s.offers := rfl

@[simp] theorem State.txEnqueue_session (frame : List Byte) : (s.txEnqueue frame).session = s.session := rfl
@[simp] theorem State.txEnqueue_pending (frame : List Byte) : (s.txEnqueue frame).pending = s.pending := rfl
@[simp] theorem State.txEnqueue_acc (frame : List Byte) : (s.txEnqueue frame).acc = s.acc := rfl
@[simp] theorem State.txEnqueue_conn (frame : List Byte) : (s.txEnqueue frame).conn = s.conn := rfl
@[simp] theorem State.txEnqueue_listener (frame : List Byte) : (s.txEnqueue frame).listener = s.listener := rfl
@[simp] theorem State.txEnqueue_events (frame : List Byte) : (s.txEnqueue frame).events = s.events := rfl
@[simp] theorem State.txEnqueue_txq (frame : List Byte) : (s.txEnqueue frame).txq = s.txq ++ [frame] := rfl
@[simp] theorem State.txEnqueue_fault (frame : List Byte) : (s.txEnqueue frame).fault = s.fault := rfl
@[simp] theorem State.txEnqueue_refused (frame : List Byte) : (s.txEnqueue frame).refused = s.refused := rfl
@[simp] theorem State.txEnqueue_hostStatus (frame : List Byte) : (s.txEnqueue frame).hostStatus = s.hostStatus := rfl
@[simp] theorem State.txEnqueue_calls (frame : List Byte) : (s.txEnqueue frame).calls = s.calls ++ [.send frame] := rfl
@[simp] theorem State.txEnqueue_offers (frame : List Byte) : (s.txEnqueue frame).offers = s.offers := rfl

@[simp] theorem State.returnStatus_session (r : HostStatus) : (s.returnStatus r).session = s.session := rfl
@[simp] theorem State.returnStatus_pending (r : HostStatus) : (s.returnStatus r).pending = s.pending := rfl
@[simp] theorem State.returnStatus_acc (r : HostStatus) : (s.returnStatus r).acc = s.acc := rfl
@[simp] theorem State.returnStatus_conn (r : HostStatus) : (s.returnStatus r).conn = s.conn := rfl
@[simp] theorem State.returnStatus_listener (r : HostStatus) : (s.returnStatus r).listener = s.listener := rfl
@[simp] theorem State.returnStatus_events (r : HostStatus) : (s.returnStatus r).events = s.events := rfl
@[simp] theorem State.returnStatus_txq (r : HostStatus) : (s.returnStatus r).txq = s.txq := rfl
@[simp] theorem State.returnStatus_fault (r : HostStatus) : (s.returnStatus r).fault = s.fault := rfl
@[simp] theorem State.returnStatus_refused (r : HostStatus) : (s.returnStatus r).refused = s.refused := rfl
@[simp] theorem State.returnStatus_hostStatus (r : HostStatus) : (s.returnStatus r).hostStatus = some r := rfl
@[simp] theorem State.returnStatus_calls (r : HostStatus) : (s.returnStatus r).calls = s.calls := rfl
@[simp] theorem State.returnStatus_offers (r : HostStatus) : (s.returnStatus r).offers = s.offers := rfl

@[simp] theorem State.turnAway_session (r : HostStatus) : (s.turnAway r).session = s.session := rfl
@[simp] theorem State.turnAway_pending (r : HostStatus) : (s.turnAway r).pending = s.pending := rfl
@[simp] theorem State.turnAway_acc (r : HostStatus) : (s.turnAway r).acc = s.acc := rfl
@[simp] theorem State.turnAway_conn (r : HostStatus) : (s.turnAway r).conn = s.conn := rfl
@[simp] theorem State.turnAway_listener (r : HostStatus) : (s.turnAway r).listener = s.listener := rfl
@[simp] theorem State.turnAway_events (r : HostStatus) : (s.turnAway r).events = s.events ++ [.trace (.hostRefused r)] := rfl
@[simp] theorem State.turnAway_txq (r : HostStatus) : (s.turnAway r).txq = s.txq := rfl
@[simp] theorem State.turnAway_fault (r : HostStatus) : (s.turnAway r).fault = s.fault := rfl
@[simp] theorem State.turnAway_refused (r : HostStatus) : (s.turnAway r).refused = s.refused := rfl
@[simp] theorem State.turnAway_hostStatus (r : HostStatus) : (s.turnAway r).hostStatus = some r := rfl
@[simp] theorem State.turnAway_calls (r : HostStatus) : (s.turnAway r).calls = s.calls := rfl
@[simp] theorem State.turnAway_offers (r : HostStatus) : (s.turnAway r).offers = s.offers := rfl

@[simp] theorem State.raiseFault_session (r : Fault) : (s.raiseFault r).session = s.session := rfl
@[simp] theorem State.raiseFault_pending (r : Fault) : (s.raiseFault r).pending = s.pending := rfl
@[simp] theorem State.raiseFault_acc (r : Fault) : (s.raiseFault r).acc = s.acc := rfl
@[simp] theorem State.raiseFault_conn (r : Fault) : (s.raiseFault r).conn = s.conn := rfl
@[simp] theorem State.raiseFault_listener (r : Fault) : (s.raiseFault r).listener = s.listener := rfl
@[simp] theorem State.raiseFault_events (r : Fault) : (s.raiseFault r).events = s.events := rfl
@[simp] theorem State.raiseFault_txq (r : Fault) : (s.raiseFault r).txq = s.txq := rfl
@[simp] theorem State.raiseFault_fault (r : Fault) : (s.raiseFault r).fault = some r := rfl
@[simp] theorem State.raiseFault_refused (r : Fault) : (s.raiseFault r).refused = s.refused := rfl
@[simp] theorem State.raiseFault_hostStatus (r : Fault) : (s.raiseFault r).hostStatus = s.hostStatus := rfl
@[simp] theorem State.raiseFault_calls (r : Fault) : (s.raiseFault r).calls = s.calls := rfl
@[simp] theorem State.raiseFault_offers (r : Fault) : (s.raiseFault r).offers = s.offers := rfl

@[simp] theorem State.refuse_session (r : Refusal) : (s.refuse r).session = s.session := rfl
@[simp] theorem State.refuse_pending (r : Refusal) : (s.refuse r).pending = s.pending := rfl
@[simp] theorem State.refuse_acc (r : Refusal) : (s.refuse r).acc = s.acc := rfl
@[simp] theorem State.refuse_conn (r : Refusal) : (s.refuse r).conn = s.conn := rfl
@[simp] theorem State.refuse_listener (r : Refusal) : (s.refuse r).listener = s.listener := rfl
@[simp] theorem State.refuse_events (r : Refusal) : (s.refuse r).events = s.events := rfl
@[simp] theorem State.refuse_txq (r : Refusal) : (s.refuse r).txq = s.txq := rfl
@[simp] theorem State.refuse_fault (r : Refusal) : (s.refuse r).fault = s.fault := rfl
@[simp] theorem State.refuse_refused (r : Refusal) : (s.refuse r).refused = true := rfl
@[simp] theorem State.refuse_hostStatus (r : Refusal) : (s.refuse r).hostStatus = s.hostStatus := rfl
@[simp] theorem State.refuse_calls (r : Refusal) : (s.refuse r).calls = s.calls := rfl
@[simp] theorem State.refuse_offers (r : Refusal) : (s.refuse r).offers = s.offers := rfl

@[simp] theorem State.endPending_session : (s.endPending).session = .idle := rfl
@[simp] theorem State.endPending_pending : (s.endPending).pending = none := rfl
@[simp] theorem State.endPending_acc : (s.endPending).acc = s.acc := rfl
@[simp] theorem State.endPending_conn : (s.endPending).conn = s.conn := rfl
@[simp] theorem State.endPending_listener : (s.endPending).listener = s.listener := rfl
@[simp] theorem State.endPending_events : (s.endPending).events = s.events := rfl
@[simp] theorem State.endPending_txq : (s.endPending).txq = s.txq := rfl
@[simp] theorem State.endPending_fault : (s.endPending).fault = s.fault := rfl
@[simp] theorem State.endPending_refused : (s.endPending).refused = s.refused := rfl
@[simp] theorem State.endPending_hostStatus : (s.endPending).hostStatus = s.hostStatus := rfl
@[simp] theorem State.endPending_calls : (s.endPending).calls = s.calls := rfl
@[simp] theorem State.endPending_offers : (s.endPending).offers = s.offers := rfl

/-- The trace of an abandoned command, if one is pending (R196). -/
def State.abandonedTrace : List Event := s.pending.toList.map fun p => .trace (.pendingAbandoned p.code)

/-- The close call of a teardown, if a handle is held (R196, R228). -/
def State.closeCall : List TransportCall := s.conn.toList.map .close

theorem State.traceAbandoned_eq : s.traceAbandoned = { s with events := s.events ++ s.abandonedTrace } := by
  cases s with | mk session pending acc conn listener events txq fault refused hostStatus calls offers =>
  cases pending <;> simp [traceAbandoned, abandonedTrace, emit]

theorem State.closeConn_eq : s.closeConn = { s with conn := none, calls := s.calls ++ s.closeCall } := by
  cases s with | mk session pending acc conn listener events txq fault refused hostStatus calls offers =>
  cases conn <;> simp [closeConn, closeCall, call]

/-- Everything a teardown does (R196): what it clears, what it reports, what it keeps. -/
theorem State.teardown_eq (r : StopReason) :
    s.teardown r =
      { s with
        session := .disconnected, pending := none, acc := .empty, conn := none, listener := .stopped, txq := []
        events := s.events ++ s.abandonedTrace ++ [.listenerStopped r]
        calls := s.calls ++ s.closeCall } := by
  simp [teardown, closeConn_eq, traceAbandoned_eq, closeCall, emit]

@[simp] theorem State.teardown_session (r : StopReason) : (s.teardown r).session = .disconnected := by rw [teardown_eq]
@[simp] theorem State.teardown_pending (r : StopReason) : (s.teardown r).pending = none := by rw [teardown_eq]
@[simp] theorem State.teardown_acc (r : StopReason) : (s.teardown r).acc = .empty := by rw [teardown_eq]
@[simp] theorem State.teardown_conn (r : StopReason) : (s.teardown r).conn = none := by rw [teardown_eq]
@[simp] theorem State.teardown_listener (r : StopReason) : (s.teardown r).listener = .stopped := by rw [teardown_eq]
@[simp] theorem State.teardown_events (r : StopReason) : (s.teardown r).events = s.events ++ s.abandonedTrace ++ [.listenerStopped r] := by rw [teardown_eq]
@[simp] theorem State.teardown_txq (r : StopReason) : (s.teardown r).txq = [] := by rw [teardown_eq]
@[simp] theorem State.teardown_fault (r : StopReason) : (s.teardown r).fault = s.fault := by rw [teardown_eq]
@[simp] theorem State.teardown_refused (r : StopReason) : (s.teardown r).refused = s.refused := by rw [teardown_eq]
@[simp] theorem State.teardown_hostStatus (r : StopReason) : (s.teardown r).hostStatus = s.hostStatus := by rw [teardown_eq]
@[simp] theorem State.teardown_calls (r : StopReason) : (s.teardown r).calls = s.calls ++ s.closeCall := by rw [teardown_eq]
@[simp] theorem State.teardown_offers (r : StopReason) : (s.teardown r).offers = s.offers := by rw [teardown_eq]

end Sys2Proof.Machine
end

