-- ==== Sys2Proof/Laws/Ops.lean ====
section
/-! SUPPORT. One lemma for each shared operation, saying once everything it can do. -/

namespace Sys2Proof.Machine

/-- The handling of a rejected frame within the limit (R189). -/
theorem State.reject_of_allowed {c : Config} {p : Pending} (h : resendAllowed c p = true) (s : State) (x : RejectReason) :
    s.reject c p x =
      { s with
        events := s.events ++ [.commandRejected p.code x, .trace (.resent p.code)]
        pending := some { p with resends := p.resends + 1 }
        txq := s.txq ++ [resendFrame c p]
        calls := s.calls ++ [.send (resendFrame c p)] } := by
  simp [reject, h, emit, txEnqueue, call]

/-- The handling of a rejected frame at the limit (R190). -/
theorem State.reject_of_limit {c : Config} {p : Pending} (h : resendAllowed c p = false) (s : State) (x : RejectReason) :
    s.reject c p x =
      { s with events := s.events ++ [.commandRejected p.code x, .trace (.resendLimitReached p.code)] } := by
  simp [reject, h, emit]

/-- The accepted case of a send, field by field (R175). -/
theorem issue_eq (c : Config) (code : Byte) (isWrite : Bool) (payload : List Byte) (s : State) :
    issue c code isWrite payload s =
      { s with
        pending := some { code := code, isWrite := isWrite, resends := 0 }
        acc := accAtIssue c code s.acc
        session := .awaiting
        txq := s.txq ++ [encodeFrame c code isWrite payload]
        hostStatus := some .accepted
        calls := s.calls ++ [.send (encodeFrame c code isWrite payload)] } := rfl

/-- What a send can do: refuse, turn away, or issue (R180). -/
theorem sendCommand_cases (c : Config) (code : Byte) (isWrite : Bool) (payload : List Byte) (s : State) :
    (sendCommand c code isWrite payload s = s.refuse .unknownCommand ∧ code ∉ c.codes)
    ∨ (sendCommand c code isWrite payload s = s.refuse .payloadTooLong ∧ maxPayload < payload.length)
    ∨ (sendCommand c code isWrite payload s = s.turnAway .notConnected ∧ connected s = false)
    ∨ (sendCommand c code isWrite payload s = s.turnAway .busy ∧ s.session = .awaiting)
    ∨ (sendCommand c code isWrite payload s = issue c code isWrite payload s
        ∧ code ∈ c.codes ∧ payload.length ≤ maxPayload ∧ s.session = .idle) := by
  unfold sendCommand
  by_cases hc : code ∈ c.codes
  · by_cases hp : maxPayload < payload.length
    · simp [hc, hp]
    · have := Nat.not_lt.mp hp
      cases hs : s.session <;> simp [hc, hp, hs, connected, this]
  · simp [hc]

/-- What a received chunk can do once it is taken (R185): a violation, the spectral path, or the framed path's three
outcomes. -/
theorem dispatchChunk_cases (c : Config) (chunk : List Byte) (s : State) :
    (s.pending = none ∧ dispatchChunk c chunk s = s.emit (.trace (.protocolViolation chunk)))
    ∨ ∃ p, s.pending = some p ∧
      ((p.code = c.codeAcquire ∧ dispatchChunk c chunk s = spectralChunk c chunk s)
      ∨ (p.code ≠ c.codeAcquire ∧
          ((∃ r, decodeFramed c chunk p.code = .decoded r
              ∧ dispatchChunk c chunk s = (s.emit (.commandCompleted p.code r)).endPending)
          ∨ (∃ f, decodeFramed c chunk p.code = .faulted f ∧ dispatchChunk c chunk s = s.raiseFault f)
          ∨ (∃ x, decodeFramed c chunk p.code = .rejected x ∧ dispatchChunk c chunk s = s.reject c p x)))) := by
  unfold dispatchChunk
  cases hp : s.pending with
  | none => simp
  | some p =>
    refine .inr ⟨p, rfl, ?_⟩
    by_cases ha : p.code = c.codeAcquire
    · simp [ha]
    · refine .inr ⟨ha, ?_⟩
      cases hd : decodeFramed c chunk p.code with
      | decoded r => exact .inl ⟨r, rfl, by simp [ha, framedChunk, hd]⟩
      | faulted f => exact .inr (.inl ⟨f, rfl, by simp [ha, framedChunk, hd]⟩)
      | rejected x => exact .inr (.inr ⟨x, rfl, by simp [ha, framedChunk, hd]⟩)

/-- The spectral path, field by field (R191): what it reports, and what it leaves. -/
theorem spectralChunk_eq (c : Config) (chunk : List Byte) (s : State) :
    spectralChunk c chunk s =
      (if acquisitionComplete c (accumulateChunk c s.acc chunk).1 then
        { s with
          events := s.events ++ [.spectralChunk (accumulateChunk c s.acc chunk).2,
            .commandCompleted c.codeAcquire (.spectrum (accumulateChunk c s.acc chunk).1.samples)]
          acc := .empty, pending := none, session := .idle }
      else
        { s with
          events := s.events ++ [.spectralChunk (accumulateChunk c s.acc chunk).2]
          acc := (accumulateChunk c s.acc chunk).1 }) := by
  simp only [spectralChunk]
  split <;> simp [State.emit, State.endPending]

/-- A chunk is taken and dispatched, or has no step (R185, R201). -/
theorem rxChunk_cases (c : Config) (chunk : List Byte) (s : State) :
    (rxEnabled s = true ∧ chunkAdmitted c chunk = true ∧ rxChunk c chunk s = dispatchChunk c chunk s)
    ∨ rxChunk c chunk s = s := by
  unfold rxChunk
  by_cases h : (rxEnabled s && chunkAdmitted c chunk) = true
  · exact .inl ⟨(Bool.and_eq_true _ _ ▸ h).1, (Bool.and_eq_true _ _ ▸ h).2, if_pos h⟩
  · exact .inr (if_neg h)

/-- A send completion removes the head, tears down, or has no step (R182, R183). -/
theorem txDone_cases (k : Nat) (s : State) :
    (∃ frame rest, s.txq = frame :: rest ∧ connected s = true ∧ k = frame.length ∧ txDone k s = { s with txq := rest })
    ∨ (connected s = true ∧ s.txq ≠ [] ∧ txDone k s = s.teardown .transportErrorSend)
    ∨ txDone k s = s := by
  unfold txDone
  by_cases hc : connected s
  · cases hq : s.txq with
    | nil => simp
    | cons frame rest =>
      by_cases hk : k = frame.length
      · exact .inl ⟨frame, rest, rfl, hc, hk, by simp [hc, hk]⟩
      · exact .inr (.inl ⟨hc, by simp, by simp [hc, hk]⟩)
  · simp [hc]

/-- A timeout is refused, ends the pending command, or has no step (R91, R192). -/
theorem timerTimeout_cases (c : Config) (s : State) :
    (c.timeoutEnabled = false ∧ timerTimeout c s = s.refuse .reservedOp)
    ∨ (∃ p, c.timeoutEnabled = true ∧ s.session = .awaiting ∧ s.pending = some p ∧ timerTimeout c s =
        { s with
          events := s.events ++ [.commandRejected p.code .timeout], acc := .empty, pending := none, session := .idle })
    ∨ timerTimeout c s = s := by
  unfold timerTimeout
  cases ht : c.timeoutEnabled
  · simp
  · split
    · split
      next p hs hp => exact .inr (.inl ⟨p, rfl, hs, hp, by simp [State.emit, State.endPending]⟩)
      next => exact .inr (.inr rfl)
    · contradiction

/-- The frame of a decision that ends in one of the host's turn-aways. -/
theorem hostConnect_cases (e : Endpoint) (s : State) :
    (s.session = .disconnected ∧ hostConnect e s =
        { s with session := .connecting, calls := s.calls ++ [.connect e], hostStatus := some .accepted })
    ∨ (s.session ≠ .disconnected ∧ hostConnect e s = s.turnAway .alreadyConnected) := by
  unfold hostConnect
  cases h : s.session <;> simp [State.call, State.returnStatus]

/-- A teardown request tears down a connection, or is turned away (R194, R195). -/
theorem hostTeardown_cases (k : TeardownKind) (s : State) :
    (connected s = true ∧ hostTeardown k s = (s.teardown .cancelled).returnStatus .accepted)
    ∨ (connected s = false ∧ hostTeardown k s = s.turnAway .notConnected) := by
  unfold hostTeardown
  cases h : connected s <;> cases k <;> simp

/-- Every operation answers a next state. -/
theorem exec_answers (i : Instr) (s : State) : ∃ t, exec i s = .next t := by
  cases i <;> exact ⟨_, rfl⟩

/-- Every step is idle, a refused word, or an operation executed with its offer taken away. -/
theorem step_cases (s : State) :
    (s.offers = [] ∧ step s = .next s)
    ∨ ∃ o rest, s.offers = o :: rest ∧
      ((∃ i, decodeOffer Config.device o = .ok i ∧ step s = exec i { s with offers := rest })
      ∨ ∃ r, decodeOffer Config.device o = .error r ∧ step s = .next (rejectedOffer { s with offers := rest } r)) := by
  unfold step
  cases ho : s.offers with
  | nil => simp
  | cons o rest =>
    refine .inr ⟨o, rest, rfl, ?_⟩
    cases hd : decodeOffer Config.device o <;> simp [hd]

end Sys2Proof.Machine
end

