-- ==== Sys2Proof/Laws/Effects.lean ====
section
/-! SUPPORT. Everything an operation can do, said once: the effects of `exec` with their conditions, so that a claim over all
operations is a case split over effects. -/

namespace Sys2Proof.Machine

/-- The sends: `HOST_SEND` and the ten command forms. -/
def sends : Instr → Bool
  | .pingRead _ | .pingWrite _ | .fwRevRead _ | .fwRevWrite _ | .fpgaRevRead _ | .fpgaRevWrite _ | .acquireRead _
  | .acquireWrite _ | .otherRead _ _ | .otherWrite _ _ | .hostSend _ _ _ => true
  | _ => false

/-- The operations a refusal can come from besides the sends (R91). -/
def refusable : List Instr :=
  [.timerTimeout, .reserved0, .reserved4, .reserved5, .reserved6, .reserved7, .reservedF]

/-- `Effect c i s t`: operation `i` can take state `s` to state `t`, and why (43_session.md). -/
inductive Effect (c : Config) (i : Instr) (s : State) : State → Prop
  /-- not enabled: no step -/
  | none : Effect c i s s
  /-- R91, R178, R179 -/
  | refuse (r : Refusal) (h : sends i = true ∨ i ∈ refusable) : Effect c i s (s.refuse r)
  /-- R174, R176, R177, R195 -/
  | turnAway (r : HostStatus) (ha : i.agent = some .host) (hs : sends i = true → s.session ≠ .idle) :
      Effect c i s (s.turnAway r)
  /-- R175 -/
  | issue (code : Byte) (w : Bool) (p : List Byte) (hi : sends i = true) (hc : code ∈ c.codes)
      (hp : p.length ≤ maxPayload) (hs : s.session = .idle) : Effect c i s (issue c code w p s)
  /-- R171 -/
  | connect (e : Endpoint) (hi : i = .hostConnect e) (hs : s.session = .disconnected) :
      Effect c i s { s with session := .connecting, calls := s.calls ++ [.connect e], hostStatus := some .accepted }
  /-- R172 -/
  | connectOk (h : Handle) (hi : i = .connectOk h) (hs : s.session = .connecting) :
      Effect c i s { s with conn := some h, listener := .running, session := .idle }
  /-- R173 -/
  | connectErr (hi : i = .connectErr) (hs : s.session = .connecting) :
      Effect c i s { s with session := .disconnected, events := s.events ++ [.trace .transportFailureConnect] }
  /-- R194 -/
  | teardownHost (k : TeardownKind) (hi : i = .hostTeardown k) (hs : connected s = true) :
      Effect c i s ((s.teardown .cancelled).returnStatus .accepted)
  /-- R183 -/
  | teardownSend (hi : i = .txErr ∨ ∃ n, i = .txDone n) (hs : connected s = true) :
      Effect c i s (s.teardown .transportErrorSend)
  /-- R193 -/
  | teardownReceive (hi : i = .rxErr) (hs : connected s = true) : Effect c i s (s.teardown .transportErrorReceive)
  /-- R182 -/
  | sent (n : Nat) (f : List Byte) (rest : List (List Byte)) (hi : i = .txDone n) (hs : connected s = true)
      (hq : s.txq = f :: rest) : Effect c i s { s with txq := rest }
  /-- R197 -/
  | violation (chunk : List Byte) (hi : i = .rxChunk chunk) (hp : s.pending = .none) (hr : rxEnabled s = true) :
      Effect c i s (s.emit (.trace (.protocolViolation chunk)))
  /-- R191, completing or not -/
  | spectral (chunk : List Byte) (p : Pending) (hi : i = .rxChunk chunk) (hp : s.pending = some p)
      (hr : rxEnabled s = true) (hc : p.code = c.codeAcquire) : Effect c i s (spectralChunk c chunk s)
  /-- R187 -/
  | completed (chunk : List Byte) (p : Pending) (r : Result) (hi : i = .rxChunk chunk) (hp : s.pending = some p)
      (hr : rxEnabled s = true) (hc : p.code ≠ c.codeAcquire) :
      Effect c i s { s with events := s.events ++ [.commandCompleted p.code r], pending := .none, session := .idle }
  /-- R188 -/
  | faulted (chunk : List Byte) (p : Pending) (f : Fault) (hi : i = .rxChunk chunk) (hp : s.pending = some p)
      (hr : rxEnabled s = true) (hc : p.code ≠ c.codeAcquire) : Effect c i s (s.raiseFault f)
  /-- R189, R190 -/
  | rejected (chunk : List Byte) (p : Pending) (x : RejectReason) (hi : i = .rxChunk chunk) (hp : s.pending = some p)
      (hr : rxEnabled s = true) (hc : p.code ≠ c.codeAcquire) : Effect c i s (s.reject c p x)
  /-- R192 -/
  | timedOut (p : Pending) (hi : i = .timerTimeout) (hs : s.session = .awaiting) (hp : s.pending = some p) :
      Effect c i s
        { s with
          events := s.events ++ [.commandRejected p.code .timeout], acc := .empty, pending := .none, session := .idle }

theorem sendCommand_effect {c : Config} {i : Instr} (hi : sends i = true) (ha : i.agent = some .host) (code : Byte)
    (w : Bool) (p : List Byte) (s : State) : Effect c i s (sendCommand c code w p s) := by
  rcases sendCommand_cases c code w p s with ⟨h, _⟩ | ⟨h, _⟩ | ⟨h, hs⟩ | ⟨h, hs⟩ | ⟨h, hc, hp, hs⟩ <;> rw [h]
  · exact .refuse _ (.inl hi)
  · exact .refuse _ (.inl hi)
  · exact .turnAway _ ha fun _ e => by simp [connected, e] at hs
  · exact .turnAway _ ha fun _ e => by simp [hs] at e
  · exact .issue code w p hi hc hp hs

theorem rxChunk_effect (c : Config) (chunk : List Byte) (s : State) :
    Effect c (.rxChunk chunk) s (rxChunk c chunk s) := by
  rcases rxChunk_cases c chunk s with ⟨hr, _, h⟩ | h <;> rw [h]
  · rcases dispatchChunk_cases c chunk s with ⟨hp, h⟩ | ⟨p, hp, ⟨hc, h⟩ | ⟨hc, ⟨r, _, h⟩ | ⟨f, _, h⟩ | ⟨x, _, h⟩⟩⟩ <;> rw [h]
    · exact .violation chunk rfl hp hr
    · exact .spectral chunk p rfl hp hr hc
    · exact .completed chunk p r rfl hp hr hc
    · exact .faulted chunk p f rfl hp hr hc
    · exact .rejected chunk p x rfl hp hr hc
  · exact .none

/-- Every operation has one of the effects above. -/
theorem exec_effect {i : Instr} {s t : State} (h : exec i s = .next t) : Effect Config.device i s t := by
  cases i <;> cases h
  case hostConnect e =>
    rcases hostConnect_cases e s with ⟨hs, h⟩ | ⟨_, h⟩ <;> rw [h]
    · exact .connect e rfl hs
    · exact .turnAway _ rfl (by simp [sends])
  case hostTeardown k =>
    rcases hostTeardown_cases k s with ⟨hs, h⟩ | ⟨_, h⟩ <;> rw [h]
    · exact .teardownHost k rfl hs
    · exact .turnAway _ rfl (by simp [sends])
  case connectOk handle =>
    unfold Machine.connectOk connectResultEnabled
    split
    next hs => exact .connectOk handle rfl (by simpa using hs)
    next => exact .none
  case connectErr =>
    unfold Machine.connectErr connectResultEnabled
    split
    next hs => exact .connectErr rfl (by simpa using hs)
    next => exact .none
  case txDone n =>
    rcases txDone_cases n s with ⟨f, rest, hq, hs, _, h⟩ | ⟨hs, _, h⟩ | h <;> rw [h]
    · exact .sent n f rest rfl hs hq
    · exact .teardownSend (.inr ⟨n, rfl⟩) hs
    · exact .none
  case txErr =>
    unfold txErr txResultEnabled
    split
    next hs => exact .teardownSend (.inl rfl) (Bool.and_eq_true _ _ ▸ hs).1
    next => exact .none
  case rxErr =>
    unfold rxErr rxEnabled
    split
    next hs => exact .teardownReceive rfl (Bool.and_eq_true _ _ ▸ hs).1
    next => exact .none
  case rxChunk chunk => exact rxChunk_effect Config.device chunk s
  case timerTimeout =>
    rcases timerTimeout_cases Config.device s with ⟨_, h⟩ | ⟨p, _, hs, hp, h⟩ | h <;> rw [h]
    · exact .refuse _ (.inr (by simp [refusable]))
    · exact .timedOut p rfl hs hp
    · exact .none
  all_goals first
    | exact sendCommand_effect rfl rfl _ _ _ s
    | exact .refuse _ (.inr (by simp [refusable]))

end Sys2Proof.Machine
end

