-- ==== Sys2Proof/Laws/PerInstr.lean ====
section
/-! SUPPORT. For every operation: the offer that encodes it decodes to it, when its operands are legal. -/

namespace Sys2Proof.Laws.OfferRoundTrip

/-- The offer of a well-formed operation is read back as that operation, with every operand (R74, R90, R91). -/
def Statement (i : Instr) : Prop :=
  i.wf Config.device = true → decodeOffer Config.device (encodeOffer Config.device i) = .ok i

theorem pingRead (p : List Byte) : Statement (.pingRead p) := by
  have look := decodeCommand_commandByte Config.device_valid (Config.codePing_mem Config.device)
  intro _
  simp [decodeOffer, encodeOffer, look]

theorem pingWrite (p : List Byte) : Statement (.pingWrite p) := by
  have look := decodeCommand_commandByte Config.device_valid (Config.codePing_mem Config.device)
  intro _
  simp [decodeOffer, encodeOffer, look]

theorem fwRevRead (p : List Byte) : Statement (.fwRevRead p) := by
  have look := decodeCommand_commandByte Config.device_valid (Config.codeFwRev_mem Config.device)
  have d := Config.device_valid.distinct
  intro _
  simp [decodeOffer, encodeOffer, look, d.1.1.symm]

theorem fwRevWrite (p : List Byte) : Statement (.fwRevWrite p) := by
  have look := decodeCommand_commandByte Config.device_valid (Config.codeFwRev_mem Config.device)
  have d := Config.device_valid.distinct
  intro _
  simp [decodeOffer, encodeOffer, look, d.1.1.symm]

theorem fpgaRevRead (p : List Byte) : Statement (.fpgaRevRead p) := by
  have look := decodeCommand_commandByte Config.device_valid (Config.codeFpgaRev_mem Config.device)
  have d := Config.device_valid.distinct
  intro _
  simp [decodeOffer, encodeOffer, look, d.1.2.1.symm, d.2.1.1.symm]

theorem fpgaRevWrite (p : List Byte) : Statement (.fpgaRevWrite p) := by
  have look := decodeCommand_commandByte Config.device_valid (Config.codeFpgaRev_mem Config.device)
  have d := Config.device_valid.distinct
  intro _
  simp [decodeOffer, encodeOffer, look, d.1.2.1.symm, d.2.1.1.symm]

theorem acquireRead (p : List Byte) : Statement (.acquireRead p) := by
  have look := decodeCommand_commandByte Config.device_valid (Config.codeAcquire_mem Config.device)
  have d := Config.device_valid.distinct
  intro _
  simp [decodeOffer, encodeOffer, look, d.1.2.2.1.symm, d.2.1.2.1.symm, d.2.2.1.1.symm]

theorem acquireWrite (p : List Byte) : Statement (.acquireWrite p) := by
  have look := decodeCommand_commandByte Config.device_valid (Config.codeAcquire_mem Config.device)
  have d := Config.device_valid.distinct
  intro _
  simp [decodeOffer, encodeOffer, look, d.1.2.2.1.symm, d.2.1.2.1.symm, d.2.2.1.1.symm]

theorem otherRead (code : Byte) (p : List Byte) : Statement (.otherRead code p) := by
  intro h
  have m : code ∈ Config.device.otherCodes := by simp [Instr.wf] at h; exact h.1
  have look := decodeCommand_commandByte Config.device_valid (Config.device.otherCodes_mem m)
  have d := Config.device_valid.distinct
  have ne : ∀ x, x ∉ Config.device.otherCodes → code ≠ x := fun x hx e => hx (e ▸ m)
  simp [decodeOffer, encodeOffer, look, ne _ d.1.2.2.2, ne _ d.2.1.2.2, ne _ d.2.2.1.2, ne _ d.2.2.2]

theorem otherWrite (code : Byte) (p : List Byte) : Statement (.otherWrite code p) := by
  intro h
  have m : code ∈ Config.device.otherCodes := by simp [Instr.wf] at h; exact h.1
  have look := decodeCommand_commandByte Config.device_valid (Config.device.otherCodes_mem m)
  have d := Config.device_valid.distinct
  have ne : ∀ x, x ∉ Config.device.otherCodes → code ≠ x := fun x hx e => hx (e ▸ m)
  simp [decodeOffer, encodeOffer, look, ne _ d.1.2.2.2, ne _ d.2.1.2.2, ne _ d.2.2.1.2, ne _ d.2.2.2]

theorem hostConnect (e : Endpoint) : Statement (.hostConnect e) := fun _ => rfl

theorem hostSend (code : Byte) (w : Bool) (p : List Byte) : Statement (.hostSend code w p) := fun _ => rfl

theorem hostTeardown (k : TeardownKind) : Statement (.hostTeardown k) := fun _ => rfl

theorem connectOk (h : Handle) : Statement (.connectOk h) := fun _ => rfl

theorem connectErr : Statement (.connectErr) := fun _ => rfl

theorem txDone (k : Nat) : Statement (.txDone k) := fun _ => rfl

theorem txErr : Statement (.txErr) := fun _ => rfl

theorem rxChunk (chunk : List Byte) : Statement (.rxChunk chunk) := fun _ => rfl

theorem rxErr : Statement (.rxErr) := fun _ => rfl

theorem timerTimeout : Statement (.timerTimeout) := fun _ => rfl

theorem reserved0 : Statement (.reserved0) := fun _ => rfl

theorem reserved4 : Statement (.reserved4) := fun _ => rfl

theorem reserved5 : Statement (.reserved5) := fun _ => rfl

theorem reserved6 : Statement (.reserved6) := fun _ => rfl

theorem reserved7 : Statement (.reserved7) := fun _ => rfl

theorem reservedF : Statement (.reservedF) := fun _ => rfl

end Sys2Proof.Laws.OfferRoundTrip
end

