-- ==== Sys2Proof/Tests/Slice0.lean ====
section
/-! SUPPORT. Tests on the vectors of 95_test_vectors.md (each test names its vector) and on words written out from the
encodings of 30_encoding.md, and for every statement with hypotheses a witness that they can be met. Where a result turns on
a parameter the test takes the spec's own test parameters. -/

namespace Sys2Proof.Tests

open Sys2Proof.Machine Sys2Proof.Claims

set_option Elab.async false

/-- The spec's test parameters (95_test_vectors.md, "The test instance"). -/
abbrev T : Config := Config.testParameters

/-- `Idle0` of 95_test_vectors.md Part 6. -/
abbrev idle0 : State := { State.reset with session := .idle, conn := some ⟨1⟩, listener := .running }

/-- `Aw(c, w, r)` of 95_test_vectors.md Part 6. -/
abbrev aw (code : Byte) (w : Bool) (r : Nat) : State := { idle0 with session := .awaiting, pending := some ⟨code, w, r⟩ }

/-- `Connecting`, after `connect E` from reset. -/
abbrev connecting : State := { State.reset with session := .connecting }

/-- The ping frame of V-EN1. -/
abbrev pingFrame : List Byte := [0x3C, 0x00, 0x01, 0x4B, 0x4A, 0x3E]

/-! ### Well-formedness: a term that each check refuses -/

/-- R100: 255 payload bytes do not fit a frame. -/
theorem test_wf_refuses_long_payload : (Instr.pingRead (List.replicate 255 0)).wf T = false := by decide +kernel

/-- R77: 0x21 is not among the OTHER codes. -/
theorem test_wf_refuses_other_code : (Instr.otherWrite 0x21 []).wf T = false := by decide

/-- R175: 0x30 is in no row of the catalog. -/
theorem test_wf_refuses_unknown_send : (Instr.hostSend 0x30 false []).wf T = false := by decide

/-- R185: a chunk longer than `RX_MAX_CHUNK`. -/
theorem test_wf_refuses_long_chunk : (Instr.rxChunk (List.replicate 261 0)).wf T = false := by decide +kernel

/-! ### Decoding: words written bit by bit from R74, R77, R90, R91 -/

/-- R74, R77: bit 7 is the write flag, bits 6 to 0 the code. -/
theorem test_decode_ping : decodeCommand T 0b01001011 [] = .ok (.pingRead []) ∧ decodeCommand T 0b11001011 [7] = .ok (.pingWrite [7]) := by
  decide

theorem test_decode_fw : decodeCommand T 0b00010000 [] = .ok (.fwRevRead []) ∧ decodeCommand T 0b10010000 [] = .ok (.fwRevWrite []) := by
  decide

theorem test_decode_fpga : decodeCommand T 0b00010001 [] = .ok (.fpgaRevRead []) ∧ decodeCommand T 0b10010001 [] = .ok (.fpgaRevWrite []) := by
  decide

theorem test_decode_acquire :
    decodeCommand T 0b00010010 [] = .ok (.acquireRead []) ∧ decodeCommand T 0b10010010 [] = .ok (.acquireWrite []) := by
  decide

theorem test_decode_other :
    decodeCommand T 0b00100000 [] = .ok (.otherRead 0x20 []) ∧ decodeCommand T 0b10100000 [1] = .ok (.otherWrite 0x20 [1]) := by
  decide

/-- R80: codes outside 0x0A..0x4C, and a code in the range that the catalog lacks. -/
theorem test_decode_refuses :
    decodeCommand T 0x09 [] = .error (.codeOutOfRange 0x09) ∧ decodeCommand T 0xCD [] = .error (.codeOutOfRange 0xCD)
    ∧ decodeCommand T 0x4C [] = .error (.unknownCommand 0x4C) := by
  decide

/-- R90: each agent's op codes. -/
theorem test_decode_ports :
    decodePort 0b0001 { endpoint := ⟨5⟩ } = .hostConnect ⟨5⟩
    ∧ decodePort 0b0010 { code := 0x4B, isWrite := true, payload := [1] } = .hostSend 0x4B true [1]
    ∧ decodePort 0b0011 { kind := .refresh } = .hostTeardown .refresh
    ∧ decodePort 0b1000 { handle := ⟨3⟩ } = .connectOk ⟨3⟩ ∧ decodePort 0b1001 {} = .connectErr
    ∧ decodePort 0b1010 { bytesWritten := 6 } = .txDone 6 ∧ decodePort 0b1011 {} = .txErr
    ∧ decodePort 0b1100 { chunk := [0x3C] } = .rxChunk [0x3C] ∧ decodePort 0b1101 {} = .rxErr
    ∧ decodePort 0b1110 {} = .timerTimeout := by
  decide

/-- R91: the reserved op codes. -/
theorem test_decode_reserved :
    decodePort 0b0000 {} = .reserved0 ∧ decodePort 0b0100 {} = .reserved4 ∧ decodePort 0b0101 {} = .reserved5
    ∧ decodePort 0b0110 {} = .reserved6 ∧ decodePort 0b0111 {} = .reserved7 ∧ decodePort 0b1111 {} = .reservedF := by
  decide

/-- The host's view of two rows' words, under the machine's own configuration. -/
theorem test_table_words : decodeTableWord 8 0x4B = some (.pingRead []) ∧ decodeTableWord 8 0xD = some .rxErr :=
  ⟨rfl, rfl⟩

/-- The word placed next is the operation that the next step runs. -/
theorem test_step_runs_the_word :
    step (State.reset.withFetchWord 8 0x1) = .next (hostConnect ⟨0⟩ State.reset) := rfl

/-- V-EN9 read back; then a reserved byte, a length byte and a checksum byte that are wrong (R71, R75, R76, R82). -/
theorem test_decode_frame :
    decodeFrame T [0x3C, 0x00, 0x04, 0xA0, 0x01, 0x02, 0x03, 0xA4, 0x3E] = .ok (.otherWrite 0x20 [1, 2, 3])
    ∧ decodeFrame T [0x3C, 0x01, 0x01, 0x4B, 0x4B, 0x3E] = .error .frameBadReserved
    ∧ decodeFrame T [0x3C, 0x00, 0x02, 0x4B, 0x49, 0x3E] = .error .frameBadLength
    ∧ decodeFrame T [0x3C, 0x00, 0x01, 0x4B, 0x4B, 0x3E] = .error .frameBadChecksum := by
  decide

/-! ### Frame codec, response decoder, spectral accumulator -/

/-- V-EN1, V-EN9, V-EN10. -/
theorem test_encode :
    encodeFrame T 0x4B false [] = [0x3C, 0x00, 0x01, 0x4B, 0x4A, 0x3E]
    ∧ encodeFrame T 0x20 true [1, 2, 3] = [0x3C, 0x00, 0x04, 0xA0, 0x01, 0x02, 0x03, 0xA4, 0x3E]
    ∧ encodeFrame T 0x20 false [0x3C, 0x3E] = [0x3C, 0x00, 0x03, 0x20, 0x3C, 0x3E, 0x21, 0x3E] := by
  decide

/-- V-EN13: the longest frame has length byte 0xFF and checksum 0xB5. -/
theorem test_encode_longest :
    byteAt (encodeFrame T 0x4B false ((List.range 254).map (BitVec.ofNat 8))) 2 = 0xFF
    ∧ byteAt (encodeFrame T 0x4B false ((List.range 254).map (BitVec.ofNat 8))) 258 = 0xB5 := by
  decide +kernel

/-- V-VA3, V-VA6, V-VA8, V-VA9, V-VA10: one reason each, the first that applies. -/
theorem test_validate_rejects :
    validate T [0x3C, 0x00, 0x00, 0x4B, 0x3E] 0x4B = .reject .tooShort
    ∧ validate T [0x3D, 0x00, 0x00, 0x11, 0x00, 0x3F] 0x4B = .reject .badDelimiters
    ∧ validate T [0x3C, 0x00, 0x00, 0xCB, 0xCB, 0x3E] 0x4B = .reject .commandMismatch
    ∧ validate { T with checkRxCrc := true } [0x3C, 0x00, 0x00, 0x10, 0xFF, 0x3E] 0x4B = .reject .commandMismatch
    ∧ validate { T with checkRxCrc := true } [0x3C, 0x00, 0x00, 0x4B, 0x00, 0x3E] 0x4B = .reject .checksumMismatch := by
  decide

/-- V-VA11, V-VA14, V-VA16. -/
theorem test_validate_accepts :
    validate T [0x3C, 0x00, 0x00, 0x4B, 0x00, 0x3E] 0x4B = .ok ⟨0, 0, 0x4B, [], 0⟩
    ∧ validate { T with checkRxCrc := true } [0x3C, 0x01, 0x02, 0x20, 0xAA, 0xBB, 0x32, 0x3E] 0x20 =
        .ok ⟨0x01, 0x02, 0x20, [0xAA, 0xBB], 0x32⟩
    ∧ validate T [0x3C, 0, 0, 0x4B, 0x4B, 0x3E, 0x3C, 0, 0, 0x4B, 0x4B, 0x3E] 0x4B =
        .ok ⟨0, 0, 0x4B, [0x4B, 0x3E, 0x3C, 0, 0, 0x4B], 0x4B⟩ := by
  decide

/-- V-DE4, V-DE6, V-DE7. -/
theorem test_decode_firmware :
    decodeFramed T [0x3C, 0, 0, 0x10, 0x09, 0x0A, 0xFF, 0x10, 0x09, 0xF5, 0x3E] 0x10 =
      .decoded (.firmwareRev ['1', '0', '.', '2', '5', '5', '.', '1', '6', '.', '9'])
    ∧ decodeFramed T [0x3C, 0, 0, 0x10, 0xAA, 0xBA, 0x3E] 0x10 =
      .decoded (.firmwareRev ['0', '.', '0', '.', '1', '6', '.', '1', '7', '0'])
    ∧ decodeFramed T [0x3C, 0, 0, 0x10, 0x10, 0x3E] 0x10 = .faulted .decodeRange := by
  decide

/-- V-DE8, V-DE10. -/
theorem test_decode_fpga_revision :
    decodeFramed T [0x3C, 0, 0, 0x11, 0x30, 0x31, 0x30, 0x2D, 0x30, 0x32, 0x31, 0x3E, 0x3E] 0x11 =
      .decoded (.fpgaRev [0x30, 0x31, 0x30, 0x2D, 0x30, 0x32, 0x31] ['0', '1', '0', '-', '0', '2', '1'])
    ∧ decodeFramed T [0x3C, 0, 0, 0x11, 0x41, 0x42, 0x12, 0x3E] 0x11 = .faulted .decodeRange := by
  decide

/-- V-DE2, V-DE12, V-DE15. -/
theorem test_decode_answers :
    decodeFramed T [0x3C, 0, 5, 0x4B, 1, 2, 3, 4, 0x4A, 0x3E] 0x4B = .decoded .ack
    ∧ decodeFramed T [0x3C, 1, 2, 0x20, 0xAA, 0xBB, 0x32, 0x3E] 0x20 = .decoded (.other ⟨1, 2, 0x20, [0xAA, 0xBB], 0x32⟩)
    ∧ decodeFramed T [0x3C, 0, 0, 0x90, 0, 1, 2, 3, 4, 0x94, 0x3E] 0x10 = .rejected .commandMismatch := by
  decide

/-- V-PS2, V-PS3, V-PS4, V-PS7. -/
theorem test_samples :
    pairSamples [0x05] = [] ∧ (pairSamples [0x01, 0x00, 0xFF, 0x7F]).map sext16 = [1, 32767]
    ∧ (pairSamples [0x00, 0x80]).map sext16 = [-32768] ∧ (pairSamples [0x80, 0x00, 0x7F, 0xFF]).map sext16 = [128, -129] := by
  decide

/-- V-AC1, V-AC4, V-AC5. -/
theorem test_accumulate :
    accumulateChunk T .empty [0x01, 0x00, 0xFF, 0x7F, 0x05] = (⟨[1, 32767], 5, none⟩, [1, 32767])
    ∧ accumulateChunk { T with oddByte := .carry } .empty [0x01, 0x00, 0xFF] = (⟨[1], 3, some 0xFF⟩, [1])
    ∧ accumulateChunk { T with oddByte := .carry } ⟨[1], 3, some 0xFF⟩ [0x7F, 0x02, 0x00] =
        (⟨[1, 32767, 2], 6, none⟩, [32767, 2]) := by
  decide

/-- V-AC1 and V-AC5, the column `ACQ_TOTAL_BYTES`. -/
theorem test_complete :
    acquisitionComplete T ⟨[], 5, none⟩ = true
    ∧ acquisitionComplete { T with acqTotalBytes := some 6 } ⟨[], 5, none⟩ = false
    ∧ acquisitionComplete { T with acqTotalBytes := some 6 } ⟨[], 6, none⟩ = true := by
  decide

/-! ### Session operations, one step each -/

/-- V-SE1, V-SE4. -/
theorem test_host_connect :
    (hostConnect ⟨1⟩ State.reset).session = .connecting
    ∧ (hostConnect ⟨1⟩ connecting).events = [.trace (.hostRefused .alreadyConnected)] := by
  decide

/-- V-SE2, V-SE31. -/
theorem test_connect_ok : connectOk ⟨1⟩ connecting = idle0 ∧ connectOk ⟨1⟩ State.reset = State.reset := by decide

/-- V-SE3. -/
theorem test_connect_err :
    (connectErr connecting).session = .disconnected ∧ (connectErr connecting).events = [.trace .transportFailureConnect] := by
  decide

/-- V-SE5, V-SE6. -/
theorem test_send_turned_away :
    sendCommand T 0x4B false [] (aw 0x10 false 0) =
      { aw 0x10 false 0 with events := [.trace (.hostRefused .busy)], hostStatus := some .busy }
    ∧ (sendCommand T 0x4B false [] State.reset).hostStatus = some .notConnected := by
  decide

/-- V-SE8, V-SE9. -/
theorem test_send_refused :
    sendCommand T 0x20 false (List.replicate 255 0) idle0 = { idle0 with refused := true }
    ∧ sendCommand T 0x30 false [] State.reset = { State.reset with refused := true } := by
  decide +kernel

/-- V-SE10. -/
theorem test_send_fw_write :
    (sendCommand T 0x10 true [0xAA] idle0).pending = some ⟨0x10, true, 0⟩
    ∧ (sendCommand T 0x10 true [0xAA] idle0).txq = [[0x3C, 0x00, 0x02, 0x90, 0xAA, 0x38, 0x3E]] := by
  decide

/-- V-SE11, from an accumulator that is not empty (R156). -/
theorem test_send_acquire_clears :
    (sendCommand T 0x12 false [] { idle0 with acc := ⟨[1], 2, none⟩ }).acc = .empty
    ∧ (sendCommand T 0x12 false [] idle0).txq = [[0x3C, 0x00, 0x01, 0x12, 0x13, 0x3E]] := by
  decide

/-- V-EN1 at the machine: whatever the device's digest, the PING arms queue 0x4B and 0xCB at offset 3. -/
theorem test_ping_arms :
    (sendCommand Config.device codePing false [] idle0).txq.map (fun f => byteAt f 3) = [0x4B]
    ∧ (sendCommand Config.device codePing true [] idle0).txq.map (fun f => byteAt f 3) = [0xCB] :=
  ⟨rfl, rfl⟩

/-- V-SE12, V-SE13. -/
theorem test_tx_done :
    txDone 6 { aw 0x4B false 0 with txq := [pingFrame] } = aw 0x4B false 0
    ∧ txDone 5 { aw 0x4B false 0 with txq := [pingFrame] } =
      { State.reset with
        events := [.trace (.pendingAbandoned 0x4B), .listenerStopped .transportErrorSend], calls := [.close ⟨1⟩] } := by
  decide

/-- V-SE14. -/
theorem test_tx_err :
    txErr { aw 0x4B false 0 with txq := [pingFrame] } = txDone 5 { aw 0x4B false 0 with txq := [pingFrame] } := by
  decide

/-- V-SE15, V-SE24. -/
theorem test_rx_answer :
    rxChunk T [0x3C, 0, 0, 0x4B, 0x4B, 0x3E] (aw 0x4B false 0) = { idle0 with events := [.commandCompleted 0x4B .ack] }
    ∧ rxChunk T [0x3C, 0, 0, 0x4B, 0x4B, 0x3E] idle0 =
      { idle0 with events := [.trace (.protocolViolation [0x3C, 0, 0, 0x4B, 0x4B, 0x3E])] } := by
  decide

/-- V-SE17, V-SE18, V-SE19. -/
theorem test_rx_rejected :
    (rxChunk T [0x3C, 0] (aw 0x10 true 0)).txq = [[0x3C, 0x00, 0x01, 0x90, 0x91, 0x3E]]
    ∧ (rxChunk { T with resendWrite := .read } [0x3C, 0] (aw 0x10 true 0)).txq = [[0x3C, 0x00, 0x01, 0x10, 0x11, 0x3E]]
    ∧ rxChunk { T with resendLimit := some 1 } [0x3C, 0] (aw 0x4B false 1) =
      { aw 0x4B false 1 with events := [.commandRejected 0x4B .tooShort, .trace (.resendLimitReached 0x4B)] } := by
  decide

/-- V-SE21. -/
theorem test_rx_fault :
    rxChunk T [0x3C, 0, 0, 0x10, 0x10, 0x3E] (aw 0x10 false 0) = { aw 0x10 false 0 with fault := some .decodeRange } := by
  decide

/-- V-SE23: a chunk for an ACQUIRE is never validated. -/
theorem test_rx_spectral :
    rxChunk T [0x3C, 0, 0, 0x12, 0x12, 0x3E] (aw 0x12 false 0) =
      { idle0 with
        events := [.spectralChunk [60, 4608, 15890], .commandCompleted 0x12 (.spectrum [60, 4608, 15890])] } := by
  decide

/-- V-SE27, V-SE31. -/
theorem test_rx_err :
    (rxErr (aw 0x4B false 0)).events = [.trace (.pendingAbandoned 0x4B), .listenerStopped .transportErrorReceive]
    ∧ rxErr State.reset = State.reset := by
  decide

/-- V-SE28, V-SE29, V-SE30. -/
theorem test_teardown :
    (hostTeardown .refresh (aw 0x4B false 0)).events = [.trace (.pendingAbandoned 0x4B), .listenerStopped .cancelled]
    ∧ (hostTeardown .disconnect idle0).events = [.listenerStopped .cancelled]
    ∧ (hostTeardown .disconnect State.reset).events = [.trace (.hostRefused .notConnected)] := by
  decide

/-- V-SE25, V-SE26, V-OP3. -/
theorem test_timeout :
    timerTimeout { T with timeoutEnabled := true } (aw 0x4B false 0) =
      { idle0 with events := [.commandRejected 0x4B .timeout] }
    ∧ timerTimeout T (aw 0x4B false 0) = { aw 0x4B false 0 with refused := true }
    ∧ timerTimeout { T with timeoutEnabled := true } idle0 = idle0 := by
  decide

/-- V-OP1. -/
theorem test_reserved : exec .reserved0 idle0 = .next { idle0 with refused := true } := rfl

/-! ### Witnesses: the hypotheses of every statement can be met -/

theorem ping_not_acquire : codePing ≠ Config.device.codeAcquire := Config.device_valid.distinct.1.2.2.1

theorem no_command_zero : (0x00 : Byte) ∉ Config.device.codes :=
  fun m => absurd (Config.device_valid.codes_ge m) (by decide)

/-- An acquisition in flight under the machine's own configuration. -/
abbrev acquiring : State := aw Config.device.codeAcquire false 0

/-- A ping in flight, its frame not yet sent. -/
abbrev pinging : State := { aw 0x4B false 0 with txq := [pingFrame] }

theorem witness_StepExecutesTheDecodedOffer :
    ({ connecting with offers := [.port 0x9 {}] }.offers = .port 0x9 {} :: []
      ∧ decodeOffer Config.device (.port 0x9 {}) = .ok .connectErr)
    ∧ decodeOffer Config.device (.command 0x00 []) = .error (.codeOutOfRange 0x00) ∧ State.reset.offers = [] :=
  ⟨⟨rfl, rfl⟩, rfl, rfl⟩

theorem witness_CommandBytesAreTheCatalogs :
    T.Valid ∧ codeOf 0x4B ∈ T.codes ∧ codeOf 0x09 ∉ T.codes ∧ decodeCommand T 0xCB [] = .ok (.pingWrite []) := by
  decide

theorem witness_OutboundFrameDecodesBack :
    T.Valid ∧ (Instr.otherWrite 0x20 (List.replicate 254 0)).wf T = true
    ∧ (frameOf T (.otherWrite 0x20 (List.replicate 254 0))).isSome = true := by
  decide +kernel

theorem witness_DecodedFrameIsTheEncodersOwn : T.Valid ∧ decodeFrame T pingFrame = .ok (.pingRead []) := by decide

theorem witness_EncodedFrameLayout :
    (0x7F : Byte) ≤ 0x7F ∧ (List.replicate 254 (0x3C : Byte)).length ≤ 254 := by decide +kernel

theorem witness_EncodeIsInjective :
    (0x4B : Byte) ≤ 0x7F ∧ (0x7F : Byte) ≤ 0x7F ∧ (List.replicate 254 (0x3C : Byte)).length ≤ 254
    ∧ encodeFrame T 0x4B true [1] = encodeFrame T 0x4B true [1] := by
  decide +kernel

theorem witness_ValidateAcceptsExactlyFramedChunks :
    T.checkRxCrc = false ∧ (∃ f, validate T [0x3C, 0x7F, 0x9A, 0x4B, 0xAE, 0x3E] 0x4B = .ok f) := ⟨rfl, _, rfl⟩

theorem witness_ValidateReportsTheFirstDefect :
    ([0x3C, 0, 0, 0x4B, 0x3E] : List Byte).length < 6
    ∧ (6 ≤ ([0x3C, 0, 0, 0x4B, 0x4B, 0x3C] : List Byte).length ∧ ([0x3C, 0, 0, 0x4B, 0x4B, 0x3C] : List Byte)[5]? ≠ some 0x3E)
    ∧ (([0x3C, 0, 0, 0xCB, 0xCB, 0x3E] : List Byte)[0]? = some 0x3C ∧ ([0x3C, 0, 0, 0xCB, 0xCB, 0x3E] : List Byte)[5]? = some 0x3E
      ∧ ([0x3C, 0, 0, 0xCB, 0xCB, 0x3E] : List Byte)[3]? ≠ some 0x4B)
    ∧ (framed [0x3C, 0, 0, 0x4B, 0, 0x3E] 0x4B ∧ ¬checksumRight T [0x3C, 0, 0, 0x4B, 0, 0x3E])
    ∧ framed [0x3C, 0, 0, 0x4B, 0x4B, 0x3E] 0x4B ∧ checksumRight T [0x3C, 0, 0, 0x4B, 0x4B, 0x3E] := by
  unfold framed checksumRight; decide

theorem witness_ValidateReadsBackEncode : T.Valid ∧ (0x20 : Byte) ∈ T.codes ∧ (List.replicate 254 (0 : Byte)).length ≤ 254 := by
  decide +kernel

theorem witness_FirmwareRevisionIsTheTail :
    T.Valid ∧ (∃ f, validate T [0x3C, 0, 0, 0x10, 0xAA, 0xBA, 0x3E] T.codeFwRev = .ok f)
    ∧ 7 ≤ ([0x3C, 0, 0, 0x10, 0xAA, 0xBA, 0x3E] : List Byte).length :=
  ⟨by decide, ⟨_, rfl⟩, by decide⟩

theorem witness_FpgaRevisionIsTheTail :
    T.Valid ∧ (∃ f, validate T [0x3C, 0, 0, 0x11, 0x41, 0x42, 0x43, 0x51, 0x3E] T.codeFpgaRev = .ok f)
    ∧ 9 ≤ ([0x3C, 0, 0, 0x11, 0x41, 0x42, 0x43, 0x51, 0x3E] : List Byte).length :=
  ⟨by decide, ⟨_, rfl⟩, by decide⟩

theorem witness_ShortRevisionAnswerFaults :
    T.Valid
    ∧ ((∃ f, validate T [0x3C, 0, 0, 0x10, 0x10, 0x3E] T.codeFwRev = .ok f)
      ∧ receives T [0x3C, 0, 0, 0x10, 0x10, 0x3E] (aw T.codeFwRev false 0))
    ∧ (∃ f, validate T [0x3C, 0, 0, 0x11, 0x41, 0x42, 0x12, 0x3E] T.codeFpgaRev = .ok f)
      ∧ receives T [0x3C, 0, 0, 0x11, 0x41, 0x42, 0x12, 0x3E] (aw T.codeFpgaRev false 0) := by
  refine ⟨by decide, ⟨⟨_, rfl⟩, ?_⟩, ⟨_, rfl⟩, ?_⟩ <;> unfold receives <;> decide

theorem witness_PingAndOtherAnswers :
    T.Valid ∧ (∃ f, validate T [0x3C, 0, 0, 0x4B, 0x4B, 0x3E] codePing = .ok f)
    ∧ (0x20 : Byte) ∈ T.otherCodes ∧ ∃ f, validate T [0x3C, 1, 2, 0x20, 0xAA, 0xBB, 0x32, 0x3E] 0x20 = .ok f :=
  ⟨by decide, ⟨_, rfl⟩, by decide, _, rfl⟩

theorem witness_SamplesAreLittleEndianPairs :
    ([0x00, 0x80] : List Byte)[2 * 0]? = some 0x00 ∧ ([0x00, 0x80] : List Byte)[2 * 0 + 1]? = some 0x80 := by decide

/-- For `AccumulateChunkAddsItsSamples` and `AcquisitionSamples`. -/
theorem witness_AccumulateAndAcquisition :
    T.oddByte = .drop ∧ ({ T with oddByte := .carry } : Config).oddByte = .carry ∧ T.acqTotalBytes = none := by decide

theorem witness_ConnectOpensOrIsTurnedAway : State.reset.session = .disconnected ∧ connecting.session ≠ .disconnected := by
  decide

theorem witness_AcceptedSendIssues :
    codePing ∈ Config.device.codes ∧ (List.replicate 254 (0 : Byte)).length ≤ 254 ∧ idle0.session = .idle :=
  ⟨Config.codePing_mem _, by decide +kernel, rfl⟩

theorem witness_SendGuardsInOrder :
    (0x00 : Byte) ∉ Config.device.codes
    ∧ (codePing ∈ Config.device.codes ∧ 254 < (List.replicate 255 (0 : Byte)).length)
    ∧ (codePing ∈ Config.device.codes ∧ (List.replicate 254 (0 : Byte)).length ≤ 254
      ∧ State.reset.session = .disconnected ∧ connecting.session = .connecting ∧ (aw 0x4B false 0).session = .awaiting) :=
  ⟨no_command_zero, ⟨Config.codePing_mem _, by decide +kernel⟩, Config.codePing_mem _, by decide +kernel, rfl, rfl, rfl⟩

theorem witness_CommandFormsIssue :
    ([] : List Byte).length ≤ 254 ∧ idle0.session = .idle ∧ Config.device.codeAcquire ∈ Config.device.codes :=
  ⟨by decide, rfl, Config.codeAcquire_mem _⟩

theorem witness_CommandFormsAreSends :
    commandParts Config.device (.fwRevWrite [1]) = some (Config.device.codeFwRev, true, [1]) := rfl

theorem witness_TeardownRequestTearsDown :
    idle0.session = .idle ∧ (aw 0x4B false 0).session = .awaiting ∧ State.reset.session = .disconnected
    ∧ connecting.session = .connecting := by
  decide

theorem witness_ConnectResultsAreTaken : connecting.session = .connecting := rfl

theorem witness_SendResultsAreTaken :
    pinging.session = .awaiting ∧ pinging.txq = [pingFrame] ∧ 5 ≠ pingFrame.length := by decide

/-- A chunk of the largest size a receive can return. -/
theorem witness_UnexpectedChunkIsTraced :
    receives Config.device (List.replicate Config.device.rxMaxChunk 0) idle0 ∧ idle0.pending = none :=
  ⟨⟨.inl rfl, rfl, by simp⟩, rfl⟩

theorem witness_SpectralChunkIsAccumulated :
    receives Config.device (List.replicate Config.device.rxMaxChunk 0) acquiring
    ∧ acquiring.pending = some ⟨Config.device.codeAcquire, false, 0⟩ :=
  ⟨⟨.inr rfl, rfl, by simp⟩, rfl⟩

theorem witness_DecodedAnswerCompletes :
    receives T [0x3C, 0, 0, 0x4B, 0x4B, 0x3E] (aw 0x4B false 0) ∧ (0x4B : Byte) ≠ T.codeAcquire
    ∧ decodeFramed T [0x3C, 0, 0, 0x4B, 0x4B, 0x3E] 0x4B = .decoded .ack := by
  unfold receives; decide

theorem witness_RejectedChunkIsResent :
    receives T [0x3C, 0] (aw 0x4B false 1) ∧ (0x4B : Byte) ≠ T.codeAcquire ∧ validate T [0x3C, 0] 0x4B = .reject .tooShort
    ∧ T.resendLimit = none ∧ ({ T with resendLimit := some 2 } : Config).resendLimit = some 2 ∧ 1 < 2 ∧ 2 ≤ 2 := by
  unfold receives; decide

theorem witness_ShortChunkIsRejected :
    receives Config.device [] (aw 0x4B false 0) ∧ (0x4B : Byte) ≠ Config.device.codeAcquire ∧ ([] : List Byte).length < 6 :=
  ⟨⟨.inr rfl, rfl, Nat.zero_le _⟩, ping_not_acquire, by decide⟩

theorem witness_ReceiveFailureTearsDown : idle0.session = .idle ∧ idle0.listener = .running := by decide

theorem witness_ChunksAreJudgedAlone :
    pinging.pending = (aw 0x4B false 0).pending ∧ pinging.session = (aw 0x4B false 0).session
    ∧ pinging.listener = (aw 0x4B false 0).listener ∧ ∀ p ∈ pinging.pending, p.code ≠ T.codeAcquire := by
  decide

theorem witness_TimeoutEndsTheCommand :
    (aw 0x4B false 0).session = .awaiting ∧ (aw 0x4B false 0).pending = some ⟨0x4B, false, 0⟩
    ∧ ({ T with timeoutEnabled := true } : Config).timeoutEnabled = true ∧ T.timeoutEnabled = false := by
  decide

theorem witness_ReservedOperationsAreRefused :
    (0xF : BitVec 4) ∈ [(0x0 : BitVec 4), 0x4, 0x5, 0x6, 0x7, 0xF] ∧ T.timeoutEnabled = false := by decide

theorem witness_NotEnabledHasNoStep :
    idle0.session ≠ .connecting ∧ idle0.txq = [] ∧ State.reset.listener = .stopped
    ∧ T.rxMaxChunk < (List.replicate 261 (0 : Byte)).length
    ∧ ({ T with timeoutEnabled := true } : Config).timeoutEnabled = true ∧ idle0.session ≠ .awaiting := by
  decide +kernel

theorem witness_SendFrame :
    (∃ t, exec (.pingRead []) idle0 = .next t ∧ t.session ≠ idle0.session)
    ∧ ∃ t, exec (.pingRead []) pinging = .next t ∧ pinging.session ≠ .idle ∧ t.session = pinging.session :=
  ⟨⟨_, rfl, by decide⟩, _, rfl, by decide, by rfl⟩

theorem witness_ConnectionFrame :
    (∃ t, exec (.hostConnect ⟨1⟩) State.reset = .next t) ∧ (∃ t, exec (.connectOk ⟨1⟩) connecting = .next t)
    ∧ ∃ t, exec .connectErr connecting = .next t :=
  ⟨⟨_, rfl⟩, ⟨_, rfl⟩, _, rfl⟩

theorem witness_TeardownFrame :
    (∃ t, exec (.hostTeardown .refresh) pinging = .next t)
    ∧ (∃ t, exec (.txDone 6) pinging = .next t ∧ t.session = pinging.session) ∧ ∃ t, exec .rxErr pinging = .next t :=
  ⟨⟨_, rfl⟩, ⟨_, rfl, rfl⟩, _, rfl⟩

theorem witness_ReceiveFrame :
    (∃ t, exec (.rxChunk []) (aw 0x4B false 0) = .next t)
    ∧ (∀ p ∈ (aw 0x4B false 0).pending, p.code ≠ Config.device.codeAcquire)
    ∧ (∃ t, exec (.rxChunk []) acquiring = .next t) ∧ ∃ p ∈ acquiring.pending, p.code = Config.device.codeAcquire :=
  ⟨⟨_, rfl⟩, fun p h => by cases h; exact ping_not_acquire, ⟨_, rfl⟩, _, rfl, rfl⟩

theorem witness_TimerAndReservedFrame :
    (∃ t, exec .timerTimeout (aw 0x4B false 0) = .next t) ∧ ∃ t, exec .reservedF idle0 = .next t :=
  ⟨⟨_, rfl⟩, _, rfl⟩

theorem witness_SessionMovesOnlyAsListed :
    ∃ t, exec (.hostConnect ⟨1⟩) State.reset = .next t ∧ t.session ≠ State.reset.session := ⟨_, rfl, by decide⟩

/-- For `EventsOnlyGrow` and `MarksAreNeverCleared`. -/
theorem witness_StepStatements :
    (∃ t, step State.reset = .next t)
    ∧ ∃ t, step { idle0 with fault := some .decodeRange, refused := true, offers := [.port 0xD {}] } = .next t
      ∧ t.session = .disconnected :=
  ⟨⟨_, rfl⟩, _, rfl, rfl⟩

theorem pinging_inv (q : List (List Byte)) : State.SessionInv Config.device { aw 0x4B false 0 with txq := q } := by
  simp [State.SessionInv, connected, State.reset]

theorem witness_PendingIsNeverOverwritten :
    pinging.SessionInv Config.device ∧ ∃ t, exec (.hostSend 0x4B true []) pinging = .next t ∧ t.pending = pinging.pending :=
  ⟨pinging_inv _, _, rfl, rfl⟩

theorem witness_AgentsKeepTheirAccessRights :
    idle0.SessionInv Config.device ∧ pinging.SessionInv Config.device
    ∧ (∃ t, exec (.pingRead []) idle0 = .next t ∧ t.pending ≠ idle0.pending)
    ∧ (∃ t, exec (.rxChunk []) idle0 = .next t ∧ idle0.pending = none)
    ∧ (∃ t, exec (.rxChunk []) pinging = .next t ∧ pinging.pending = some ⟨0x4B, false, 0⟩)
    ∧ (∃ t, exec .txErr pinging = .next t ∧ t.pending ≠ pinging.pending)
    ∧ ∃ t, exec (.txDone 6) pinging = .next t ∧ t.session ≠ .disconnected :=
  ⟨by simp [State.SessionInv, connected, State.reset], pinging_inv _, ⟨_, rfl, by decide +kernel⟩,
    ⟨_, rfl, rfl⟩, ⟨_, rfl, rfl⟩, ⟨_, rfl, by decide⟩, _, rfl, by decide⟩

theorem witness_TransmitQueueIsFifo : ∃ t, exec (.txDone 6) pinging = .next t ∧ pinging.txq = pingFrame :: t.txq :=
  ⟨_, rfl, by decide⟩

theorem witness_TeardownIsNotAReset : ∃ t, exec .txErr pinging = .next t ∧ t.session = .disconnected := ⟨_, rfl, by decide⟩

theorem witness_CallsFollowTheState :
    (∃ t, exec (.pingRead []) idle0 = .next t ∧ ∃ f, t.txq = idle0.txq ++ [f])
    ∧ (∃ t, exec .rxErr idle0 = .next t ∧ t.conn = none)
    ∧ (∃ t, exec (.hostConnect ⟨1⟩) State.reset = .next t ∧ State.reset.session = .disconnected)
    ∧ (∃ t, exec (.txDone 6) pinging = .next t ∧ t.calls = pinging.calls)
    ∧ ∃ t, exec (.txDone 6) pinging = .next t ∧ (∀ f, t.txq ≠ pinging.txq ++ [f]) ∧ t.conn ≠ none
      ∧ ∀ e, Instr.txDone 6 ≠ .hostConnect e :=
  ⟨⟨_, rfl, _, rfl⟩, ⟨_, rfl, by decide⟩, ⟨_, rfl, rfl⟩, ⟨_, rfl, rfl⟩,
    _, rfl, fun f h => absurd (congrArg List.length h) (by simp [txDone, connected]), by decide, fun e h => nomatch h⟩

theorem witness_BringUpAcceptsACommand : codePing ∈ Config.device.codes ∧ ([] : List Byte).length ≤ 254 :=
  ⟨Config.codePing_mem _, by decide⟩

theorem witness_ResetWaitsForAConnect :
    (∃ t, exec (.hostConnect ⟨1⟩) State.reset = .next t ∧ t.session ≠ .disconnected)
    ∧ Instr.rxErr.agent = some .listener ∧ Instr.txErr.agent = some .transport :=
  ⟨⟨_, rfl, by decide⟩, rfl, rfl⟩

theorem witness_EveryStepKeepsTheSession :
    idle0.SessionInv Config.device ∧ ∃ t, step { idle0 with offers := [.command 0x4B []] } = .next t :=
  ⟨by simp [State.SessionInv, connected, State.reset], _, rfl⟩

theorem witness_EveryStepKeepsTheData :
    (aw 0x4B false 0).DataInv Config.device ∧ ∃ t, step { aw 0x4B false 0 with offers := [.port 0xC {}] } = .next t :=
  ⟨⟨by simp [State.reset], fun p h => by cases h; exact ⟨Config.codePing_mem _, fun k _ => Nat.zero_le k⟩,
    by simp [AccShape, State.reset, Acc.empty], fun h => absurd rfl h⟩, _, rfl⟩

end Sys2Proof.Tests
end

section
/-! The reset state, field by field (10_state.md rule R34), and the obligation that its fields hold the spec's values. -/

namespace Sys2Proof.Machine

@[simp] theorem State.reset_session : State.reset.session = .disconnected := rfl
@[simp] theorem State.reset_pending : State.reset.pending = none := rfl
@[simp] theorem State.reset_acc : State.reset.acc = .empty := rfl
@[simp] theorem State.reset_conn : State.reset.conn = none := rfl
@[simp] theorem State.reset_listener : State.reset.listener = .stopped := rfl
@[simp] theorem State.reset_txq : State.reset.txq = [] := rfl
@[simp] theorem State.reset_events : State.reset.events = [] := rfl
@[simp] theorem State.reset_fault : State.reset.fault = none := rfl
@[simp] theorem State.reset_refused : State.reset.refused = false := rfl

/-- The empty accumulator by its three components, as R25 and R34 write it. -/
theorem Acc.empty_eq : Acc.empty = ⟨[], 0, none⟩ := rfl

/-- Settles O1, one field of R34's table after another. -/
theorem resetLeavesEveryFieldAsStated : Obligations.ResetLeavesEveryFieldAsStated :=
  ⟨State.reset_session, State.reset_pending, State.reset_acc.trans Acc.empty_eq, State.reset_conn, State.reset_listener,
    State.reset_txq, State.reset_events, State.reset_fault, State.reset_refused⟩

end Sys2Proof.Machine
end

section
/-! The layout of an encoded frame (30_encoding.md rule R71): a header of four bytes, the payload, and two bytes after
it; and the obligation that says where each part stands. -/

namespace Sys2Proof

/-- The command byte as the code with the write flag or-ed into bit 7, in either form (R74). -/
theorem commandByte_eq_or (code : Byte) (w : Bool) : commandByte code w = code ||| if w then 0x80 else 0x00 := by
  cases w
  case false => simp [commandByte]
  case true => rfl

/-- The length byte does not wrap: a payload within `MAX_PAYLOAD` keeps its length plus one below 256 (R75). -/
theorem toNat_lengthByte {n : Nat} (h : n ≤ 254) : (BitVec.ofNat 8 (n + 1)).toNat = n + 1 := by
  rw [BitVec.toNat_ofNat, Nat.mod_eq_of_lt (by omega)]

section
variable (c : Config) (code : Byte) (w : Bool) (p : List Byte)

/-- A frame by its header, its payload and its two last bytes, as R71's table lists them. -/
theorem encodeFrame_eq_header_payload_trailer :
    encodeFrame c code w p =
      [0x3C, 0x00, BitVec.ofNat 8 (p.length + 1), commandByte code w] ++ p ++ [c.digest (frameBody code w p), 0x3E] := rfl

/-- The bytes between the start delimiter and the checksum byte are the ones the encoder digests (R76, R112). -/
theorem slice_encodeFrame_covered : slice (encodeFrame c code w p) 1 (4 + p.length) = frameBody code w p := by
  have stop : 4 + p.length = [(0x3C : Byte)].length + (frameBody code w p).length := by
    rw [length_frameBody, List.length_singleton]; omega
  rw [stop]
  exact slice_middle [0x3C] (frameBody code w p) [c.digest (frameBody code w p), 0x3E]

theorem slice_encodeFrame_payload : slice (encodeFrame c code w p) 4 (4 + p.length) = p := by
  rw [encodeFrame_eq_header_payload_trailer]
  exact slice_middle [0x3C, 0x00, BitVec.ofNat 8 (p.length + 1), commandByte code w] p _

/-- What follows the payload starts at offset `4 + p.length`. -/
theorem getElem?_encodeFrame_trailer (k : Nat) :
    (encodeFrame c code w p)[4 + p.length + k]? = [c.digest (frameBody code w p), 0x3E][k]? := by
  have lead : ([0x3C, 0x00, BitVec.ofNat 8 (p.length + 1), commandByte code w] ++ p).length = 4 + p.length := by
    simp; omega
  rw [encodeFrame_eq_header_payload_trailer, List.getElem?_append_right (by omega), lead, Nat.add_sub_cancel_left]

end

/-- Settles O8: the header is read off the frame's front, the payload and the covered bytes are slices of it, and the
checksum byte and the end delimiter are what follows the payload. -/
theorem encodedFrameLayout : Obligations.EncodedFrameLayout := by
  intro c code w p _ hp
  have checksum := getElem?_encodeFrame_trailer c code w p 0
  have stop := getElem?_encodeFrame_trailer c code w p 1
  have stopOffset : p.length + 5 = 4 + p.length + 1 := by omega
  refine ⟨length_encodeFrame c code w p, rfl, stopOffset ▸ stop, rfl, ⟨_, rfl, toNat_lengthByte hp⟩, ?_,
    slice_encodeFrame_payload c code w p, ?_⟩
  · rw [← commandByte_eq_or]; rfl
  · rw [slice_encodeFrame_covered]; exact checksum

end Sys2Proof
end

section
/-! The refused port operations (30_encoding.md rule R91): the reserved op codes, which are the operations of no agent, and
the timeout of a block without a timer. -/

namespace Sys2Proof.Machine

/-- A refusal sets the mark and nothing else, whatever its reason (R15, R32, R217). -/
theorem State.refuse_eq (s : State) (r : Refusal) : s.refuse r = { s with refused := true } := rfl

/-- An operation of no agent is one of the reserved op codes, and each of those is refused. -/
theorem exec_of_agent_none {i : Instr} (h : i.agent = none) (s : State) : exec i s = .next { s with refused := true } := by
  cases i <;> cases h <;> rfl

theorem agent_decodePort_reserved {op : BitVec 4} (h : op ∈ [(0x0 : BitVec 4), 0x4, 0x5, 0x6, 0x7, 0xF]) (x : Lanes) :
    (decodePort op x).agent = none := by
  simp only [List.mem_cons, List.not_mem_nil, or_false] at h
  obtain rfl | rfl | rfl | rfl | rfl | rfl := h <;> rfl

theorem exec_timerTimeout (s : State) : exec .timerTimeout s = .next (timerTimeout Config.device s) := rfl

theorem timerTimeout_of_no_timer {c : Config} (h : c.timeoutEnabled = false) (s : State) :
    timerTimeout c s = { s with refused := true } := by
  simp [timerTimeout, h, State.refuse_eq]

/-- Settles O38: a reserved op code decodes to an operation of no agent, which is refused, and so is the timeout without a
timer. -/
theorem reservedOperationsAreRefused : Obligations.ReservedOperationsAreRefused := by
  refine ⟨fun s => ⟨?_, ?_, ?_, ?_, ?_, ?_⟩, fun op h x => exec_of_agent_none (agent_decodePort_reserved h x),
    exec_timerTimeout, fun c s h => timerTimeout_of_no_timer h s⟩
  all_goals exact exec_of_agent_none rfl s

end Sys2Proof.Machine
end

section
/-! The Frame Codec's `Validate` (40_frame_codec.md rules R103 to R109): its answer for each defect and for a framed chunk,
what an accepted chunk is, and the two obligations about acceptance and the order of the checks. -/

namespace Sys2Proof

theorem getElem?_eq_some_byteAt {b : List Byte} {i : Nat} (h : i < b.length) : b[i]? = some (byteAt b i) := by
  simp [byteAt, h]

/-- At an offset that exists, the byte read is the byte that stands there (R51). -/
theorem byteAt_eq_iff {b : List Byte} {i : Nat} (h : i < b.length) {v : Byte} : byteAt b i = v ↔ b[i]? = some v := by
  rw [getElem?_eq_some_byteAt h, Option.some_inj]

namespace Machine

open Claims

theorem length_inboundFrame_payload (b : List Byte) : (inboundFrame b).payload.length = b.length - 6 := by
  simp only [inboundFrame, length_slice]; omega

section
variable {c : Config} {b : List Byte} {expected : Byte}

theorem validate_of_short (short : b.length < 6) : validate c b expected = .reject .tooShort := if_pos short

theorem validate_of_badDelimiters (long : 6 ≤ b.length) (bad : b[0]? ≠ some 0x3C ∨ b[b.length - 1]? ≠ some 0x3E) :
    validate c b expected = .reject .badDelimiters := by
  rw [← not_and_or, ← byteAt_eq_iff (by omega), ← byteAt_eq_iff (by omega), not_and_or] at bad
  rw [validate, if_neg (by omega), if_pos bad]

/-- Past the length and the delimiters, the command byte and the checksum decide. -/
theorem validate_of_delimited (long : 6 ≤ b.length) (start : b[0]? = some 0x3C) (stop : b[b.length - 1]? = some 0x3E) :
    validate c b expected =
      if byteAt b 3 ≠ expected then .reject .commandMismatch
      else if c.checkRxCrc ∧ byteAt b (b.length - 2) ≠ c.digest (slice b 1 (b.length - 2)) then
        .reject .checksumMismatch
      else .ok (inboundFrame b) := by
  rw [← byteAt_eq_iff (by omega)] at start stop
  rw [validate, if_neg (by omega), if_neg (by simp [start, stop])]

theorem validate_of_commandMismatch (long : 6 ≤ b.length) (start : b[0]? = some 0x3C)
    (stop : b[b.length - 1]? = some 0x3E) (other : b[3]? ≠ some expected) :
    validate c b expected = .reject .commandMismatch := by
  rw [ne_eq, ← byteAt_eq_iff (by omega)] at other
  rw [validate_of_delimited long start stop, if_pos other]

theorem checksumRight_iff_byteAt (long : 6 ≤ b.length) :
    checksumRight c b ↔ byteAt b (b.length - 2) = c.digest (slice b 1 (b.length - 2)) :=
  (byteAt_eq_iff (by omega)).symm

/-- For a framed chunk only the checksum is left to decide. -/
theorem validate_of_framed (h : framed b expected) :
    validate c b expected =
      if c.checkRxCrc ∧ byteAt b (b.length - 2) ≠ c.digest (slice b 1 (b.length - 2)) then .reject .checksumMismatch
      else .ok (inboundFrame b) := by
  obtain ⟨long, start, stop, command⟩ := h
  rw [← byteAt_eq_iff (by omega)] at command
  rw [validate_of_delimited long start stop, if_neg (not_not.mpr command)]

theorem validate_of_checksumMismatch (h : framed b expected) (on : c.checkRxCrc = true) (wrong : ¬checksumRight c b) :
    validate c b expected = .reject .checksumMismatch := by
  rw [checksumRight_iff_byteAt h.1] at wrong
  rw [validate_of_framed h, if_pos ⟨on, wrong⟩]

theorem validate_of_noDefect (h : framed b expected) (right : c.checkRxCrc = false ∨ checksumRight c b) :
    validate c b expected = .ok (inboundFrame b) := by
  rw [checksumRight_iff_byteAt h.1] at right
  rw [validate_of_framed h, if_neg]
  rintro ⟨on, wrong⟩
  exact right.elim (fun off => by simp [on] at off) wrong

/-- What is accepted has none of the four defects: each of them is rejected. -/
theorem framed_of_validate_ok {f : InboundFrame} (h : validate c b expected = .ok f) :
    framed b expected ∧ (c.checkRxCrc = false ∨ checksumRight c b) := by
  have long : 6 ≤ b.length := by
    by_contra short
    cases (validate_of_short (by omega)).symm.trans h
  obtain ⟨start, stop⟩ : b[0]? = some 0x3C ∧ b[b.length - 1]? = some 0x3E := by
    by_contra bad
    cases (validate_of_badDelimiters long (not_and_or.mp bad)).symm.trans h
  have command : b[3]? = some expected := by
    by_contra other
    cases (validate_of_commandMismatch long start stop other).symm.trans h
  have isFramed : framed b expected := ⟨long, start, stop, command⟩
  refine ⟨isFramed, ?_⟩
  by_contra wrong
  obtain ⟨on, mismatch⟩ := not_or.mp wrong
  cases (validate_of_checksumMismatch isFramed (by simpa using on) mismatch).symm.trans h

/-- `Validate` accepts a chunk without defect, as the frame of the fields of R79, and no other (R104, R109). -/
theorem validate_eq_ok_iff {f : InboundFrame} :
    validate c b expected = .ok f ↔
      framed b expected ∧ (c.checkRxCrc = false ∨ checksumRight c b) ∧ inboundFrame b = f := by
  constructor
  · intro h
    obtain ⟨isFramed, right⟩ := framed_of_validate_ok h
    exact ⟨isFramed, right, Validated.ok.inj ((validate_of_noDefect isFramed right).symm.trans h)⟩
  · rintro ⟨isFramed, right, rfl⟩
    exact validate_of_noDefect isFramed right

end

/-- Settles O10: with the checksum test off only the frame decides, and the fields are read at offsets that exist in six
bytes. -/
theorem validateAcceptsExactlyFramedChunks : Obligations.ValidateAcceptsExactlyFramedChunks := by
  intro c b expected off
  refine ⟨⟨fun ⟨f, h⟩ => (framed_of_validate_ok h).1, fun h => ⟨_, validate_of_noDefect h (.inl off)⟩⟩, fun f h => ?_⟩
  obtain ⟨⟨long, -⟩, -, rfl⟩ := validate_eq_ok_iff.mp h
  exact ⟨getElem?_eq_some_byteAt (by omega), getElem?_eq_some_byteAt (by omega), getElem?_eq_some_byteAt (by omega), rfl,
    getElem?_eq_some_byteAt (by omega), length_inboundFrame_payload b⟩

/-- Settles O11, one of `Validate`'s answers after another in the order of R108. -/
theorem validateReportsTheFirstDefect : Obligations.ValidateReportsTheFirstDefect := fun _ _ _ =>
  ⟨validate_of_short, validate_of_badDelimiters, validate_of_commandMismatch, validate_of_checksumMismatch,
    fun h right => ⟨_, validate_of_noDefect h right⟩⟩

end Machine
end Sys2Proof
end

section
/-! The Response Decoder (41_response_decoder.md): the strategy of each code of the catalog, what each strategy makes of a
validated chunk, and the step a framed command's chunk takes; and the obligations about short revision answers, PING and
the other commands. -/

namespace Sys2Proof.Machine

open Claims

section
variable {c : Config}

/-! The catalog's tags (R77): the codes' distinctness (R10) makes each code reach its own. -/

@[simp] theorem strategyOf_codePing : strategyOf c codePing = .acknowledge := if_pos rfl

theorem strategyOf_codeFwRev (h : c.Valid) : strategyOf c c.codeFwRev = .fixedTail 2 5 := by
  obtain ⟨⟨ping, -⟩, -⟩ := h.distinct
  rw [strategyOf, if_neg ping.symm, if_pos rfl]

theorem strategyOf_codeFpgaRev (h : c.Valid) : strategyOf c c.codeFpgaRev = .fixedTail 2 7 := by
  obtain ⟨⟨-, ping, -⟩, ⟨fwRev, -⟩, -⟩ := h.distinct
  rw [strategyOf, if_neg ping.symm, if_neg fwRev.symm, if_pos rfl]

theorem strategyOf_other (h : c.Valid) {code : Byte} (m : code ∈ c.otherCodes) : strategyOf c code = .unmodeled := by
  obtain ⟨⟨-, -, -, ping⟩, ⟨-, -, fwRev⟩, ⟨-, fpgaRev⟩, acquire⟩ := h.distinct
  rw [strategyOf, if_neg (ne_of_mem_of_not_mem m ping), if_neg (ne_of_mem_of_not_mem m fwRev),
    if_neg (ne_of_mem_of_not_mem m fpgaRev), if_neg (ne_of_mem_of_not_mem m acquire)]

theorem fixedTail_eq_none_iff {offset len : Nat} {b : List Byte} :
    fixedTail offset len b = none ↔ b.length < offset + len := by
  simp [fixedTail]

variable {b : List Byte} {code : Byte} {f : InboundFrame}

/-- A validated chunk is decoded by the strategy of the pending code (R130). -/
theorem decodeFramed_of_ok (ok : validate c b code = .ok f) : decodeFramed c b code = decodeAccepted c b code f := by
  rw [decodeFramed, ok]

theorem decodeFramed_of_acknowledge (ok : validate c b code = .ok f) (tag : strategyOf c code = .acknowledge) :
    decodeFramed c b code = .decoded .ack := by
  rw [decodeFramed_of_ok ok, decodeAccepted, tag]

theorem decodeFramed_of_unmodeled (ok : validate c b code = .ok f) (tag : strategyOf c code = .unmodeled) :
    decodeFramed c b code = .decoded (.other f) := by
  rw [decodeFramed_of_ok ok, decodeAccepted, tag]

/-- A fixed tail that would start before offset 0 is a fault and never a value (R136). -/
theorem decodeFramed_of_shortTail {offset len : Nat} (ok : validate c b code = .ok f)
    (tag : strategyOf c code = .fixedTail offset len) (short : b.length < offset + len) :
    decodeFramed c b code = .faulted .decodeRange := by
  simp only [decodeFramed_of_ok ok, decodeAccepted, tag, fixedTail_eq_none_iff.mpr short]

/-- `receives` spells out the enabling condition of a chunk (R185). -/
theorem rxChunk_of_receives {s : State} (h : receives c b s) : rxChunk c b s = dispatchChunk c b s := by
  obtain ⟨session, running, fits⟩ := h
  exact if_pos (by simpa [rxEnabled, connected, chunkAdmitted] using ⟨⟨session, running⟩, fits⟩)

/-- With any command but ACQUIRE pending, a chunk takes the framed path (R185). -/
theorem dispatchChunk_of_framed {s : State} {p : Pending} (pending : s.pending = some p)
    (notAcquire : p.code ≠ c.codeAcquire) : dispatchChunk c b s = framedChunk c p b s := by
  simp only [dispatchChunk, pending, if_neg notAcquire]

/-- A decoding that faults raises the fault, and that is the whole step (R188). -/
theorem rxChunk_of_faulted {s : State} {p : Pending} {r : Fault} (enabled : receives c b s) (pending : s.pending = some p)
    (notAcquire : p.code ≠ c.codeAcquire) (fault : decodeFramed c b p.code = .faulted r) :
    rxChunk c b s = { s with fault := some r } := by
  rw [rxChunk_of_receives enabled, dispatchChunk_of_framed pending notAcquire, framedChunk, fault]
  rfl

end

/-- Settles O15: either revision's range is longer than the chunk, so the decoding faults, and neither revision is an
ACQUIRE, so the session raises that fault. -/
theorem shortRevisionAnswerFaults : Obligations.ShortRevisionAnswerFaults := by
  intro c valid b f code s w n revision ok
  obtain ⟨-, ⟨-, fwRev, -⟩, ⟨fpgaRev, -⟩, -⟩ := valid.distinct
  have faulted : decodeFramed c b code = .faulted .decodeRange ∧ code ≠ c.codeAcquire := by
    obtain ⟨rfl, len⟩ | ⟨rfl, -, len⟩ := revision
    · exact ⟨decodeFramed_of_shortTail ok (strategyOf_codeFwRev valid) (by omega), fwRev⟩
    · exact ⟨decodeFramed_of_shortTail ok (strategyOf_codeFpgaRev valid) (by omega), fpgaRev⟩
  obtain ⟨fault, notAcquire⟩ := faulted
  exact ⟨fault, fun enabled pending => rxChunk_of_faulted enabled pending notAcquire fault⟩

/-- Settles O16, by the strategies of the two kinds of command. -/
theorem pingAndOtherAnswers : Obligations.PingAndOtherAnswers := fun _ valid _ _ =>
  ⟨fun ok => decodeFramed_of_acknowledge ok strategyOf_codePing,
    fun _ other ok => decodeFramed_of_unmodeled ok (strategyOf_other valid other)⟩

end Sys2Proof.Machine
end

section
/-! The Spectral Accumulator (42_spectral_accumulator.md): the bytes a chunk gives to pair and the byte it leaves over
(R152, R153); and the obligation about one chunk. -/

namespace Sys2Proof

/-- The byte at the last offset, under `byteAt`'s reading, is the list's last one. -/
theorem some_byteAt_length_sub_one {b : List Byte} (h : b ≠ []) : some (byteAt b (b.length - 1)) = b.getLast? := by
  have pos : 0 < b.length := List.length_pos_iff.mpr h
  rw [List.getLast?_eq_getElem?, getElem?_eq_some_byteAt (by omega)]

namespace Machine

theorem accBytes_eq (acc : Acc) (chunk : List Byte) : accBytes acc chunk = acc.carry.toList ++ chunk := by
  cases h : acc.carry <;> simp [accBytes, h]

section
variable {c : Config}

theorem carryOf_of_drop (h : c.oddByte = .drop) (bytes : List Byte) : carryOf c bytes = none := by
  simp [carryOf, h]

/-- An odd number of bytes is not zero, so under `Carry` the byte left over exists. -/
theorem carryOf_of_carry (h : c.oddByte = .carry) (bytes : List Byte) :
    carryOf c bytes = if bytes.length % 2 = 1 then bytes.getLast? else none := by
  by_cases odd : bytes.length % 2 = 1
  · have nonempty : bytes ≠ [] := by rintro rfl; simp at odd
    rw [carryOf, if_pos ⟨h, odd⟩, if_pos odd, some_byteAt_length_sub_one nonempty]
  · rw [carryOf, if_neg (fun both => odd both.2), if_neg odd]

end

/-- The accumulator after a chunk and the chunk's samples, with the carried byte written before the chunk (R153). -/
theorem accumulateChunk_eq (c : Config) (acc : Acc) (chunk : List Byte) :
    accumulateChunk c acc chunk =
      (⟨acc.samples ++ pairSamples (acc.carry.toList ++ chunk), acc.byteCount + chunk.length,
          carryOf c (acc.carry.toList ++ chunk)⟩, pairSamples (acc.carry.toList ++ chunk)) := by
  rw [accumulateChunk, accBytes_eq]

/-- Settles O19: the samples and the count are read off the step, and the carry is decided by the policy. -/
theorem accumulateChunkAddsItsSamples : Obligations.AccumulateChunkAddsItsSamples := by
  intro c acc chunk
  rw [accumulateChunk_eq]
  exact ⟨rfl, rfl, rfl, fun drop => carryOf_of_drop drop _, fun carry => carryOf_of_carry carry _⟩

end Machine
end Sys2Proof
end

section
/-! The states the session's statements spell out (43_session.md), as what the shared operations of the model leave: a
turn-away, an issued command, a teardown, the two ways of a rejection, and the spectral path. -/

namespace Sys2Proof.Machine

open Claims

/-- A connection is `Idle` or `Awaiting` (R22). -/
theorem connected_iff {s : State} : connected s = true ↔ s.session = .idle ∨ s.session = .awaiting := by
  simp [connected]

theorem connected_eq_false_iff {s : State} :
    connected s = false ↔ s.session = .disconnected ∨ s.session = .connecting := by
  cases h : s.session <;> simp [connected, h]

theorem encodeFrame_eq_frame (c : Config) (code : Byte) (w : Bool) (p : List Byte) :
    encodeFrame c code w p = frame c code w p := rfl

section
variable (s : State)

theorem State.turnAway_eq_turnedAway (r : HostStatus) : s.turnAway r = turnedAway r s := rfl

/-- Issuing makes one transport call, the send of the frame it queues (R175). -/
theorem issue_eq_issued (c : Config) (code : Byte) (w : Bool) (p : List Byte) :
    issue c code w p s = issued c code w p s (s.calls ++ [.send (frame c code w p)]) := rfl

/-- A teardown makes at most one transport call, the close of the handle it releases (R196). -/
theorem State.teardown_eq_tornDown (r : StopReason) : s.teardown r = tornDown r s (s.calls ++ s.closeCall) := by
  rw [teardown_eq, tornDown, abandonedTrace]
  cases s.pending <;> rfl

variable (c : Config) (p : Pending)

/-- The write form a resend keeps or drops, by the policy (R198). -/
theorem resendIsWrite_eq : resendIsWrite c p = if c.resendWrite = .keep then p.isWrite else false := by
  cases h : c.resendWrite <;> simp [resendIsWrite, h]

/-- Without a limit every resend is allowed, and with one those below it are (R189, R190). -/
theorem resendAllowed_iff : resendAllowed c p = true ↔ ∀ n ∈ c.resendLimit, p.resends < n := by
  cases h : c.resendLimit <;> simp [resendAllowed, h]

variable {c p}

theorem State.reject_eq_resent (below : ∀ n ∈ c.resendLimit, p.resends < n) (x : RejectReason) :
    s.reject c p x = resent c p x s (s.calls ++ [.send (resendFrame c p)]) := by
  rw [reject_of_allowed ((resendAllowed_iff c p).mpr below), resent, resendFrame, resendIsWrite_eq,
    encodeFrame_eq_frame]

theorem State.reject_eq_limitReached {n : Nat} (limit : c.resendLimit = some n) (reached : n ≤ p.resends)
    (x : RejectReason) : s.reject c p x = limitReached p x s := by
  have notAllowed : ¬resendAllowed c p = true := fun allowed =>
    absurd ((resendAllowed_iff c p).mp allowed n limit) (Nat.not_lt.mpr reached)
  rw [reject_of_limit (Bool.eq_false_iff.mpr notAllowed), limitReached]

end

/-- An acquisition is complete when no total is set or the total is reached (R155). -/
theorem acquisitionComplete_iff {c : Config} {acc : Acc} :
    acquisitionComplete c acc = true ↔ ∀ total ∈ c.acqTotalBytes, total ≤ acc.byteCount := by
  cases h : c.acqTotalBytes <;> simp [acquisitionComplete, h]

theorem spectralChunk_eq_spectral (c : Config) (chunk : List Byte) (s : State) :
    spectralChunk c chunk s = spectral c chunk s := by
  simp only [spectralChunk_eq, spectral, acquisitionComplete_iff]
  rfl

end Sys2Proof.Machine
end

section
/-! The host's operations (43_session.md rules R171, R174 to R180, R194, R195): each guard's outcome, and the
obligations about connect, send and teardown. -/

namespace Sys2Proof.Machine

open Claims

theorem exec_hostConnect (e : Endpoint) (s : State) : exec (.hostConnect e) s = .next (hostConnect e s) := rfl

theorem exec_hostSend (code : Byte) (w : Bool) (payload : List Byte) (s : State) :
    exec (.hostSend code w payload) s = .next (sendCommand Config.device code w payload s) := rfl

theorem exec_hostTeardown (k : TeardownKind) (s : State) : exec (.hostTeardown k) s = .next (hostTeardown k s) := rfl

theorem hostConnect_of_disconnected {s : State} (h : s.session = .disconnected) (e : Endpoint) :
    hostConnect e s =
      { s with session := .connecting, calls := s.calls ++ [.connect e], hostStatus := some .accepted } :=
  ((hostConnect_cases e s).resolve_right fun other => other.1 h).2

theorem hostConnect_of_not_disconnected {s : State} (h : s.session ≠ .disconnected) (e : Endpoint) :
    hostConnect e s = turnedAway .alreadyConnected s :=
  ((hostConnect_cases e s).resolve_left fun opens => h opens.1).2

/-- Settles O21, by the two cases of a connect. -/
theorem connectOpensOrIsTurnedAway : Obligations.ConnectOpensOrIsTurnedAway := by
  refine ⟨fun e s h => ⟨s.calls ++ [.connect e], ?_⟩, fun e s h => ?_⟩
  · rw [exec_hostConnect, hostConnect_of_disconnected h]
  · rw [exec_hostConnect, hostConnect_of_not_disconnected h]

section
variable {c : Config} {code : Byte} {payload : List Byte} {s : State} (w : Bool)

/-! The guards of a send, each with the ones before it passed (R180). -/

theorem sendCommand_of_unknown (unknown : code ∉ c.codes) :
    sendCommand c code w payload s = { s with refused := true } := if_pos unknown

theorem sendCommand_of_long (known : code ∈ c.codes) (long : maxPayload < payload.length) :
    sendCommand c code w payload s = { s with refused := true } := by
  rw [sendCommand, if_neg (not_not.mpr known), if_pos long, State.refuse_eq]

/-- Past the two refusals the session alone decides. -/
theorem sendCommand_of_sendable (known : code ∈ c.codes) (fits : payload.length ≤ maxPayload) :
    sendCommand c code w payload s =
      if connected s = false then turnedAway .notConnected s
      else if busy s then turnedAway .busy s
      else issue c code w payload s := by
  rw [sendCommand, if_neg (not_not.mpr known), if_neg (Nat.not_lt.mpr fits)]
  cases h : s.session <;> simp [connected, busy, h, State.turnAway_eq_turnedAway]

theorem sendCommand_of_not_connected (known : code ∈ c.codes) (fits : payload.length ≤ maxPayload)
    (session : s.session = .disconnected ∨ s.session = .connecting) :
    sendCommand c code w payload s = turnedAway .notConnected s := by
  rw [sendCommand_of_sendable w known fits, if_pos (connected_eq_false_iff.mpr session)]

theorem sendCommand_of_awaiting (known : code ∈ c.codes) (fits : payload.length ≤ maxPayload)
    (session : s.session = .awaiting) :
    sendCommand c code w payload s = turnedAway .busy s := by
  simp [sendCommand_of_sendable w known fits, connected, busy, session]

theorem sendCommand_of_idle (known : code ∈ c.codes) (fits : payload.length ≤ maxPayload)
    (session : s.session = .idle) :
    sendCommand c code w payload s = issued c code w payload s (s.calls ++ [.send (frame c code w payload)]) := by
  simp [sendCommand_of_sendable w known fits, connected, busy, session, issue_eq_issued]

end

/-- Settles O22: from `Idle` no guard applies, and the command is issued. -/
theorem acceptedSendIssues : Obligations.AcceptedSendIssues := by
  intro code w p s known fits session
  exact ⟨_, by rw [exec_hostSend, sendCommand_of_idle w known fits session]⟩

/-- Settles O23, one guard after another in the order of R180. -/
theorem sendGuardsInOrder : Obligations.SendGuardsInOrder := by
  intro code w p s
  rw [exec_hostSend]
  refine ⟨fun unknown => ?_, fun known long => ?_, fun known fits session => ?_, fun known fits session => ?_⟩
  · rw [sendCommand_of_unknown w unknown]
  · rw [sendCommand_of_long w known long]
  · rw [sendCommand_of_not_connected w known fits session]
  · rw [sendCommand_of_awaiting w known fits session]

theorem hostTeardown_of_connected {s : State} (h : connected s = true) (k : TeardownKind) :
    hostTeardown k s = (s.teardown .cancelled).returnStatus .accepted :=
  ((hostTeardown_cases k s).resolve_right fun other => Bool.false_ne_true (other.1.symm.trans h)).2

theorem hostTeardown_of_not_connected {s : State} (h : connected s = false) (k : TeardownKind) :
    hostTeardown k s = turnedAway .notConnected s :=
  ((hostTeardown_cases k s).resolve_left fun other => Bool.false_ne_true (h.symm.trans other.1)).2

/-- Settles O26: whether there is a connection decides, and the kind does not (R200). -/
theorem teardownRequestTearsDown : Obligations.TeardownRequestTearsDown := by
  intro kind s
  rw [exec_hostTeardown]
  refine ⟨fun session => ⟨s.calls ++ s.closeCall, ?_⟩, fun session => ?_⟩
  · rw [hostTeardown_of_connected (connected_iff.mpr session), State.teardown_eq_tornDown, State.returnStatus]
  · rw [hostTeardown_of_not_connected (connected_eq_false_iff.mpr session)]

end Sys2Proof.Machine
end

section
/-! The transport's operations and the receive failure (43_session.md rules R172, R173, R182, R183, R193), where they
are enabled: a result of a connect while `Connecting`, and the others in a connection. -/

namespace Sys2Proof.Machine

open Claims

section
variable {s : State}

theorem exec_connectOk_of_connecting (session : s.session = .connecting) (h : Handle) :
    exec (.connectOk h) s = .next { s with conn := some h, listener := .running, session := .idle } :=
  congrArg Host.Outcome.next (if_pos (decide_eq_true session))

theorem exec_connectErr_of_connecting (session : s.session = .connecting) :
    exec .connectErr s =
      .next { s with session := .disconnected, events := s.events ++ [.trace .transportFailureConnect] } :=
  congrArg Host.Outcome.next (if_pos (decide_eq_true session))

variable {f : List Byte} {rest : List (List Byte)}

/-- With a frame queued in a connection, the count written decides (R182, R183). -/
theorem exec_txDone_of_queued (session : connected s = true) (queued : s.txq = f :: rest) (n : Nat) :
    exec (.txDone n) s =
      .next (if n = f.length then { s with txq := rest } else s.teardown .transportErrorSend) := by
  have taken : txDone n s = if n = f.length then { s with txq := rest } else s.teardown .transportErrorSend := by
    simp only [txDone, if_pos session, queued]
  exact congrArg Host.Outcome.next taken

theorem exec_txErr_of_queued (session : connected s = true) (queued : s.txq = f :: rest) :
    exec .txErr s = .next (s.teardown .transportErrorSend) := by
  have enabled : txResultEnabled s = true := by simp [txResultEnabled, session, queued]
  exact congrArg Host.Outcome.next (if_pos enabled)

theorem exec_rxErr_of_running (session : connected s = true) (running : s.listener = .running) :
    exec .rxErr s = .next (s.teardown .transportErrorReceive) := by
  have enabled : rxEnabled s = true := by simp [rxEnabled, session, running]
  exact congrArg Host.Outcome.next (if_pos enabled)

end

/-- Settles O27: both results are enabled while `Connecting`. -/
theorem connectResultsAreTaken : Obligations.ConnectResultsAreTaken := fun h _ session =>
  ⟨exec_connectOk_of_connecting session h, exec_connectErr_of_connecting session⟩

/-- Settles O28: the whole length takes the frame, and any other count fails as `T_TX_ERR` does. -/
theorem sendResultsAreTaken : Obligations.SendResultsAreTaken := by
  intro s f rest session queued
  have connection := connected_iff.mpr session
  refine ⟨?_, fun n short => ⟨s.calls ++ s.closeCall, ?_⟩, s.calls ++ s.closeCall, ?_⟩
  · rw [exec_txDone_of_queued connection queued, if_pos rfl]
  · rw [exec_txDone_of_queued connection queued, if_neg short, State.teardown_eq_tornDown]
  · rw [exec_txErr_of_queued connection queued, State.teardown_eq_tornDown]

/-- Settles O34: a running listener in a connection takes the failure, which tears down. -/
theorem receiveFailureTearsDown : Obligations.ReceiveFailureTearsDown := by
  intro s session running
  exact ⟨_, by rw [exec_rxErr_of_running (connected_iff.mpr session) running, State.teardown_eq_tornDown]⟩

end Sys2Proof.Machine
end

section
/-! A received chunk by what is pending (43_session.md rules R185, R189 to R191, R197): nothing, an ACQUIRE, or a framed
command whose chunk is rejected; and the three obligations about them. -/

namespace Sys2Proof.Machine

open Claims

theorem exec_rxChunk (chunk : List Byte) (s : State) :
    exec (.rxChunk chunk) s = .next (rxChunk Config.device chunk s) := rfl

section
variable {c : Config} {chunk : List Byte} {s : State}

theorem dispatchChunk_of_none (pending : s.pending = none) :
    dispatchChunk c chunk s = s.emit (.trace (.protocolViolation chunk)) := by
  simp only [dispatchChunk, pending]

variable {p : Pending} (pending : s.pending = some p)
include pending

theorem dispatchChunk_of_acquire (acquire : p.code = c.codeAcquire) : dispatchChunk c chunk s = spectral c chunk s := by
  simp only [dispatchChunk, pending, if_pos acquire, spectralChunk_eq_spectral]

/-- What `Validate` rejects is never decoded: the session handles the rejection (R130, R189). -/
theorem rxChunk_of_rejected {x : RejectReason} (enabled : receives c chunk s) (notAcquire : p.code ≠ c.codeAcquire)
    (rejected : validate c chunk p.code = .reject x) : rxChunk c chunk s = s.reject c p x := by
  rw [rxChunk_of_receives enabled, dispatchChunk_of_framed pending notAcquire, framedChunk, decodeFramed, rejected]

end

/-- Settles O29: with nothing pending the multiplexer traces the chunk. -/
theorem unexpectedChunkIsTraced : Obligations.UnexpectedChunkIsTraced := by
  intro chunk s enabled pending
  rw [exec_rxChunk, rxChunk_of_receives enabled, dispatchChunk_of_none pending, State.emit]

/-- Settles O30: a pending ACQUIRE selects the spectral path, which completes by the policy. -/
theorem spectralChunkIsAccumulated : Obligations.SpectralChunkIsAccumulated := by
  intro chunk s p enabled pending acquire
  rw [exec_rxChunk, rxChunk_of_receives enabled, dispatchChunk_of_acquire pending acquire]

/-- Settles O32: the step is the handling of the rejection, which the limit splits. -/
theorem rejectedChunkIsResent : Obligations.RejectedChunkIsResent := by
  intro c chunk s p x enabled pending notAcquire rejected
  rw [rxChunk_of_rejected pending enabled notAcquire rejected]
  exact ⟨fun noLimit => ⟨_, s.reject_eq_resent (by simp [noLimit]) x⟩,
    fun n limit below => ⟨_, s.reject_eq_resent (by simpa [limit] using below) x⟩,
    fun n limit reached => s.reject_eq_limitReached limit reached x⟩

end Sys2Proof.Machine
end

section
/-! The response timer (43_session.md rule R192): the timeout of a block with a timer, and the obligation about the
timeout in either kind of block. -/

namespace Sys2Proof.Machine

open Claims

theorem timerTimeout_of_awaiting {c : Config} {s : State} {p : Pending} (timer : c.timeoutEnabled = true)
    (session : s.session = .awaiting) (pending : s.pending = some p) :
    timerTimeout c s =
      { s with
        events := s.events ++ [.commandRejected p.code .timeout]
        pending := none, acc := emptyAcc, session := .idle } := by
  simp only [timerTimeout, if_pos timer, session, pending]
  rfl

/-- Settles O37: the operation is its meaning under the device's configuration, whose timer is there or not. -/
theorem timeoutEndsTheCommand : Obligations.TimeoutEndsTheCommand := by
  refine ⟨fun s p session pending => ?_, exec_timerTimeout, fun c s p => timerTimeout_of_awaiting,
    fun c s off => timerTimeout_of_no_timer off s⟩
  rw [exec_timerTimeout]
  split
  next timer => rw [timerTimeout_of_awaiting timer session pending]
  next off => rw [timerTimeout_of_no_timer (Bool.eq_false_iff.mpr off)]

end Sys2Proof.Machine
end

section
/-! The wire level, both ways (30_encoding.md sections 1 to 3, 40_frame_codec.md section 1): an encoded frame has the
shape of a frame, bytes of that shape are an encoded frame, and the command forms are what the catalog makes of the
command bytes; and the obligations that follow. -/

namespace Sys2Proof

open Machine Claims

/-! ### Command bytes -/

/-- A command byte is made again of its code and its write flag (R74). -/
theorem commandByte_codeOf_isWriteOf (b : Byte) : commandByte (codeOf b) (isWriteOf b) = b := by
  revert b; decide

/-- Seven bits of code are what is left of a command byte without the write flag, catalog code or not (R74). -/
theorem codeOf_commandByte_of_le {code : Byte} (w : Bool) (h : code ≤ 0x7F) : codeOf (commandByte code w) = code := by
  revert code w; decide

theorem isWriteOf_commandByte_of_le {code : Byte} (w : Bool) (h : code ≤ 0x7F) :
    isWriteOf (commandByte code w) = w := by
  revert code w; decide

/-- The two ranges of the command-byte map: the catalog's range without and with the write flag (R80). -/
theorem commandByte_range {code : Byte} (w : Bool) (ge : 0x0A ≤ code) (le : code ≤ 0x4C) :
    (0x0A ≤ commandByte code w ∧ commandByte code w ≤ 0x4C)
    ∨ (0x8A ≤ commandByte code w ∧ commandByte code w ≤ 0xCC) := by
  revert code w; decide

/-! ### Command forms -/

theorem Config.mem_codes {c : Config} {code : Byte} :
    code ∈ c.codes ↔ code = codePing ∨ code = c.codeFwRev ∨ code = c.codeFpgaRev ∨ code = c.codeAcquire
      ∨ code ∈ c.otherCodes := by
  simp [Config.codes]

/-- A code of the OTHER commands is none of the named ones (R10). -/
theorem Config.Valid.other_ne {c : Config} (valid : c.Valid) {code : Byte} (other : code ∈ c.otherCodes) :
    code ≠ codePing ∧ code ≠ c.codeFwRev ∧ code ≠ c.codeFpgaRev ∧ code ≠ c.codeAcquire := by
  obtain ⟨⟨-, -, -, ping⟩, ⟨-, -, fwRev⟩, ⟨-, fpgaRev⟩, acquire⟩ := valid.distinct
  exact ⟨ne_of_mem_of_not_mem other ping, ne_of_mem_of_not_mem other fwRev, ne_of_mem_of_not_mem other fpgaRev,
    ne_of_mem_of_not_mem other acquire⟩

section
variable {c : Config} {b code : Byte} {w : Bool} {p : List Byte} {i : Instr}

/-- What a command byte decodes to is a form of the byte's code, which is in the catalog, with the byte's write flag and
the payload (R77); its operands are legal when the payload is (R100). -/
theorem decodeCommand_ok (h : decodeCommand c b p = .ok i) :
    codeOf b ∈ c.codes ∧ commandParts c i = some (codeOf b, isWriteOf b, p)
    ∧ (p.length ≤ maxPayload → i.wf c = true) := by
  rw [decodeCommand] at h
  split_ifs at h <;> cases h
  all_goals simp_all [Config.mem_codes, commandParts, Instr.wf, payloadFits]

/-- The parts of a well-formed form are a code of the catalog and a payload that fits (R77, R100). -/
theorem commandParts_legal (parts : commandParts c i = some (code, w, p)) (wf : i.wf c = true) :
    code ∈ c.codes ∧ p.length ≤ maxPayload := by
  cases i <;> cases parts
  all_goals simp_all [Instr.wf, payloadFits, Config.mem_codes]

/-- The command byte of a well-formed form decodes to that form, as the codes of the catalog differ (R10, R80). -/
theorem decodeCommand_of_commandParts (valid : c.Valid) (parts : commandParts c i = some (code, w, p))
    (wf : i.wf c = true) : decodeCommand c (commandByte code w) p = .ok i := by
  rw [decodeCommand_commandByte valid (commandParts_legal parts wf).1]
  obtain ⟨⟨pingFw, pingFpga, pingAcq, -⟩, ⟨fwFpga, fwAcq, -⟩, ⟨fpgaAcq, -⟩, -⟩ := valid.distinct
  cases i <;> cases parts
  case otherRead | otherWrite => simp [valid.other_ne (code := code) (by simp_all [Instr.wf])]
  all_goals simp [pingFw.symm, pingFpga.symm, pingAcq.symm, fwFpga.symm, fwAcq.symm, fpgaAcq.symm]

theorem frameOf_eq_some_iff {f : List Byte} :
    frameOf c i = some f ↔ ∃ code w p, commandParts c i = some (code, w, p) ∧ encodeFrame c code w p = f := by
  simp [frameOf, Prod.exists]

end

/-- Settles O4: a byte is the command byte of its own code and flag, and those of catalog codes are the ones that
decode. -/
theorem commandBytesAreTheCatalogs : Obligations.CommandBytesAreTheCatalogs := by
  intro c valid b p
  refine ⟨⟨fun ⟨i, h⟩ => (decodeCommand_ok h).1, fun known => ?_⟩, fun i h => ?_⟩
  · have decoded := decodeCommand_commandByte valid known (isWriteOf b) p
    rw [commandByte_codeOf_isWriteOf] at decoded
    rw [decoded]
    split_ifs <;> exact ⟨_, rfl⟩
  · have known := (decodeCommand_ok h).1
    rw [← commandByte_codeOf_isWriteOf b]
    exact commandByte_range _ (valid.codes_ge known) (valid.codes_le known)

/-! ### Frames -/

section
variable {c : Config} {b : List Byte} {code : Byte} {w : Bool} {p : List Byte}

theorem byteAt_eq_getElem {i : Nat} (h : i < b.length) : byteAt b i = b[i] := by
  simp [byteAt, h]

/-- Six bytes or more are a header of four, two at the end, and what stands between them (R71). -/
theorem eq_header_middle_trailer (long : 6 ≤ b.length) :
    b = [byteAt b 0, byteAt b 1, byteAt b 2, byteAt b 3] ++ slice b 4 (b.length - 2)
      ++ [byteAt b (b.length - 2), byteAt b (b.length - 1)] := by
  have header : b.take 4 = [byteAt b 0, byteAt b 1, byteAt b 2, byteAt b 3] := by
    match b, long with
    | _ :: _ :: _ :: _ :: _ :: _ :: _, _ => rfl
  have next : b.length - 2 + 1 = b.length - 1 := by omega
  have trailer : b.drop (b.length - 2) = [byteAt b (b.length - 2), byteAt b (b.length - 1)] := by
    rw [List.drop_eq_getElem_cons (by omega), List.drop_eq_getElem_cons (by omega), List.drop_eq_nil_of_le (by omega),
      byteAt_eq_getElem (by omega), byteAt_eq_getElem (by omega)]
    simp only [next]
  have middle := (List.take_append_drop 4 (b.take (b.length - 2))).symm
  rw [List.take_take, min_eq_left (by omega), header] at middle
  calc b = b.take (b.length - 2) ++ b.drop (b.length - 2) := (List.take_append_drop _ _).symm
    _ = _ := by rw [middle, trailer, slice]

/-- An encoded frame is a framed chunk of its own command byte, with the right checksum (R71, R76). -/
theorem framed_encodeFrame (c : Config) (code : Byte) (w : Bool) (p : List Byte) :
    framed (encodeFrame c code w p) (commandByte code w) ∧ checksumRight c (encodeFrame c code w p) := by
  have length := length_encodeFrame c code w p
  have last : (encodeFrame c code w p).length - 1 = 4 + p.length + 1 := by omega
  have beforeLast : (encodeFrame c code w p).length - 2 = 4 + p.length := by omega
  refine ⟨⟨by omega, rfl, ?_, rfl⟩, ?_⟩
  · rw [last]; exact getElem?_encodeFrame_trailer c code w p 1
  · rw [checksumRight, beforeLast, slice_encodeFrame_covered]; exact getElem?_encodeFrame_trailer c code w p 0

/-- What the encoder makes of a catalog code and a payload that fits has the shape of a frame (R71, R102). -/
theorem frameShape_encodeFrame (valid : c.Valid) (known : code ∈ c.codes) (fits : p.length ≤ maxPayload) :
    FrameShape c (encodeFrame c code w p) := by
  have fits : p.length ≤ 254 := fits
  have length := length_encodeFrame c code w p
  obtain ⟨⟨long, start, stop, command⟩, checksum⟩ := framed_encodeFrame c code w p
  rw [← byteAt_eq_iff (by omega)] at start stop command
  refine ⟨long, by omega, start, stop, rfl, ?_, ?_, (checksumRight_iff_byteAt long).mp checksum⟩
  · rw [length]
    exact congrArg (· + 5) (toNat_lengthByte fits)
  · rwa [command, codeOf_commandByte code w (valid.codes_le known)]

/-- The bytes between the start delimiter and the two at the end are the rest of the header and the middle (R76). -/
theorem slice_covered (long : 6 ≤ b.length) :
    slice b 1 (b.length - 2) = [byteAt b 1, byteAt b 2, byteAt b 3] ++ slice b 4 (b.length - 2) := by
  have whole : [byteAt b 0] ++ ([byteAt b 1, byteAt b 2, byteAt b 3] ++ slice b 4 (b.length - 2))
      ++ [byteAt b (b.length - 2), byteAt b (b.length - 1)] = b := (eq_header_middle_trailer long).symm
  have stop : [byteAt b 0].length + ([byteAt b 1, byteAt b 2, byteAt b 3] ++ slice b 4 (b.length - 2)).length =
      b.length - 2 := by
    simp [length_slice]; omega
  have covered := slice_middle [byteAt b 0] ([byteAt b 1, byteAt b 2, byteAt b 3] ++ slice b 4 (b.length - 2))
    [byteAt b (b.length - 2), byteAt b (b.length - 1)]
  rwa [stop, whole] at covered

/-- Bytes of the shape of a frame are the encoder's frame of the code, the write flag and the payload found in them
(R83). -/
theorem encodeFrame_of_frameShape (shape : FrameShape c b) :
    encodeFrame c (codeOf (byteAt b 3)) (isWriteOf (byteAt b 3)) (slice b 4 (b.length - 2)) = b := by
  obtain ⟨long, -, start, stop, reserved, length, -, checksum⟩ := shape
  have lengthByte : BitVec.ofNat 8 ((slice b 4 (b.length - 2)).length + 1) = byteAt b 2 := by
    rw [length_slice, show min (b.length - 2) b.length - 4 + 1 = (byteAt b 2).toNat by omega, BitVec.ofNat_toNat,
      BitVec.setWidth_eq]
  have body : frameBody (codeOf (byteAt b 3)) (isWriteOf (byteAt b 3)) (slice b 4 (b.length - 2)) =
      slice b 1 (b.length - 2) := by
    rw [frameBody, commandByte_codeOf_isWriteOf, lengthByte, slice_covered long, reserved]
  rw [encodeFrame, body, ← checksum, slice_covered long, ← start, ← stop]
  exact (eq_header_middle_trailer long).symm

/-- A frame is read where its bytes have the shape of one, and then as its command byte with its payload (R83, R102). -/
theorem decodeFrame_eq_ok_iff {i : Instr} :
    decodeFrame c b = .ok i ↔
      FrameShape c b ∧ decodeCommand c (byteAt b 3) (slice b 4 (b.length - 2)) = .ok i := by
  constructor
  · intro h
    rw [decodeFrame] at h
    split_ifs at h with short delimiters reserved length checksum
    obtain ⟨start, stop⟩ := not_or.mp delimiters
    have length := not_not.mp length
    have bound := (byteAt b 2).isLt
    exact ⟨⟨by omega, by omega, not_not.mp start, not_not.mp stop, not_not.mp reserved, length, (decodeCommand_ok h).1,
      not_not.mp checksum⟩, h⟩
  · rintro ⟨⟨long, -, start, stop, reserved, length, -, checksum⟩, h⟩
    rw [decodeFrame, if_neg (by omega), if_neg (by simp [start, stop]), if_neg (by simp [reserved]),
      if_neg (by simp [length]), if_neg (by simp [checksum]), h]

end

/-- Settles O5: the encoder's frame has the shape of a frame, and the command byte and the payload in it are the
form's. -/
theorem outboundFrameDecodesBack : Obligations.OutboundFrameDecodesBack := by
  intro c valid i f wf encoded
  obtain ⟨code, w, p, parts, rfl⟩ := frameOf_eq_some_iff.mp encoded
  obtain ⟨known, fits⟩ := commandParts_legal parts wf
  have stop : (encodeFrame c code w p).length - 2 = 4 + p.length := by
    rw [length_encodeFrame]; omega
  refine decodeFrame_eq_ok_iff.mpr ⟨frameShape_encodeFrame valid known fits, ?_⟩
  rw [stop, slice_encodeFrame_payload]
  exact decodeCommand_of_commandParts valid parts wf

/-- Settles O6: bytes read as a form have the shape of a frame, so they are the encoder's frame of what stands in them,
and the length byte bounds the payload. -/
theorem decodedFrameIsTheEncodersOwn : Obligations.DecodedFrameIsTheEncodersOwn := by
  intro c _ b i h
  obtain ⟨shape, command⟩ := decodeFrame_eq_ok_iff.mp h
  obtain ⟨-, parts, legal⟩ := decodeCommand_ok command
  have fits : (slice b 4 (b.length - 2)).length ≤ 254 := by
    obtain ⟨-, short, -⟩ := shape
    rw [length_slice]; omega
  exact ⟨legal fits, frameOf_eq_some_iff.mpr ⟨_, _, _, parts, encodeFrame_of_frameShape shape⟩⟩

/-- Settles O9: the length of a frame gives the payload's, the payload stands at offset 4, and the command byte at
offset 3 gives the code and the flag. -/
theorem encodeIsInjective : Obligations.EncodeIsInjective := by
  intro c code code' w w' p p' le le' _ _ same
  have length : p.length = p'.length := by
    have := congrArg List.length same
    rw [length_encodeFrame, length_encodeFrame] at this
    omega
  have command : commandByte code w = commandByte code' w' := congrArg (byteAt · 3) same
  refine ⟨?_, ?_, ?_⟩
  · rw [← codeOf_commandByte_of_le w le, command, codeOf_commandByte_of_le w' le']
  · rw [← isWriteOf_commandByte_of_le w le, command, isWriteOf_commandByte_of_le w' le']
  · rw [← slice_encodeFrame_payload c code w p, same, length, slice_encodeFrame_payload]

/-- An encoded frame is accepted as an answer to its own command byte, with the fields the encoder gave it, whether the
checksum is tested or not. -/
theorem validate_encodeFrame (c : Config) (code : Byte) (w : Bool) (p : List Byte) :
    validate c (encodeFrame c code w p) (commandByte code w) =
      .ok ⟨0x00, BitVec.ofNat 8 (p.length + 1), commandByte code w, p, c.digest (frameBody code w p)⟩ := by
  obtain ⟨isFramed, checksum⟩ := framed_encodeFrame c code w p
  have stop : (encodeFrame c code w p).length - 2 = 4 + p.length := by
    rw [length_encodeFrame]; omega
  have payload : slice (encodeFrame c code w p) 4 ((encodeFrame c code w p).length - 2) = p := by
    rw [stop, slice_encodeFrame_payload]
  have crc : byteAt (encodeFrame c code w p) ((encodeFrame c code w p).length - 2) = c.digest (frameBody code w p) := by
    rw [(checksumRight_iff_byteAt isFramed.1).mp checksum, stop, slice_encodeFrame_covered]
  rw [validate_of_noDefect isFramed (.inr checksum), inboundFrame, payload, crc]
  rfl

/-- Settles O12: a frame is accepted by its own command byte, which is the code in the read form and the code with bit 7
set in the write form; the plain code is another byte than the latter. -/
theorem validateReadsBackEncode : Obligations.ValidateReadsBackEncode := by
  intro c valid code known p _
  obtain ⟨⟨long, start, stop, command⟩, -⟩ := framed_encodeFrame c code true p
  have flag w := isWriteOf_commandByte code w (valid.codes_le known)
  have differs : commandByte code true ≠ commandByte code false := fun same => by
    have flags := congrArg isWriteOf same
    rw [flag, flag] at flags
    contradiction
  exact ⟨validate_encodeFrame c code false p,
    validate_of_commandMismatch long start stop fun plain => differs (Option.some.inj (command.symm.trans plain)),
    _, validate_encodeFrame c code true p, rfl⟩

/-- Settles O3: the operands of a lane pass through the op code unread, and the command bytes are looked up. -/
theorem wordsDecodeAsTheSpecEncodesThem : Obligations.WordsDecodeAsTheSpecEncodesThem := by
  refine ⟨fun x => ?_, fun c p => ?_, ?_⟩
  · refine ⟨?_, ?_, ?_, ?_, ?_, ?_, ?_, ?_, ?_, ?_, ?_, ?_, ?_, ?_, ?_, ?_⟩ <;> rfl
  · exact ⟨rfl, rfl⟩
  · decide

end Sys2Proof
end

section
/-! The two ways of a received chunk that have more than one outcome, each said once over its outcomes: the handling of
a rejected frame (43_session.md rules R189, R190) and the spectral path (R191). -/

namespace Sys2Proof.Machine

section
variable (c : Config) (p : Pending) (x : RejectReason) (s : State)

/-- The frames a rejection queues: the resend, within the limit (R189, R190). -/
def resendFrames : List (List Byte) := if resendAllowed c p then [resendFrame c p] else []

/-- The pending command after its rejection: with one resend more, within the limit (R189, R190). -/
def afterReject : Pending := if resendAllowed c p then { p with resends := p.resends + 1 } else p

/-- What a rejection reports besides itself: the resend, or the limit (R189, R190). -/
def rejectTrace : TraceKind := if resendAllowed c p then .resent p.code else .resendLimitReached p.code

variable {s}

/-- The handling of a rejected frame on both sides of the limit at once: the rejection and its trace are reported, and a
resend is counted, queued and handed to the transport if the limit allows one. -/
theorem State.reject_eq (pending : s.pending = some p) :
    s.reject c p x =
      { s with
        events := s.events ++ [.commandRejected p.code x, .trace (rejectTrace c p)]
        pending := some (afterReject c p)
        txq := s.txq ++ resendFrames c p
        calls := s.calls ++ (resendFrames c p).map .send } := by
  cases allowed : resendAllowed c p
  case false => simp [reject_of_limit allowed, rejectTrace, afterReject, resendFrames, allowed, ← pending]
  case true => simp [reject_of_allowed allowed, rejectTrace, afterReject, resendFrames, allowed]

theorem length_resendFrame : (resendFrame c p).length = 6 := length_encodeFrame c p.code _ []

/-- A rejection queues nothing or one frame, which is the resend. -/
theorem resendFrames_cases : resendFrames c p = [] ∨ resendFrames c p = [resendFrame c p] := by
  unfold resendFrames
  split
  next => exact .inr rfl
  next => exact .inl rfl

/-- A rejection keeps the command, and counts at most one resend more. -/
theorem afterReject_cases : afterReject c p = p ∨ afterReject c p = { p with resends := p.resends + 1 } := by
  unfold afterReject
  split
  next => exact .inr rfl
  next => exact .inl rfl

end

section
variable (c : Config) (chunk : List Byte) (s : State)

/-! The spectral path writes the session, the command, the accumulator and the history, and no other field. -/

@[simp] theorem spectralChunk_conn : (spectralChunk c chunk s).conn = s.conn := by
  rw [spectralChunk_eq]; split <;> rfl
@[simp] theorem spectralChunk_listener : (spectralChunk c chunk s).listener = s.listener := by
  rw [spectralChunk_eq]; split <;> rfl
@[simp] theorem spectralChunk_txq : (spectralChunk c chunk s).txq = s.txq := by
  rw [spectralChunk_eq]; split <;> rfl
@[simp] theorem spectralChunk_fault : (spectralChunk c chunk s).fault = s.fault := by
  rw [spectralChunk_eq]; split <;> rfl
@[simp] theorem spectralChunk_refused : (spectralChunk c chunk s).refused = s.refused := by
  rw [spectralChunk_eq]; split <;> rfl
@[simp] theorem spectralChunk_hostStatus : (spectralChunk c chunk s).hostStatus = s.hostStatus := by
  rw [spectralChunk_eq]; split <;> rfl
@[simp] theorem spectralChunk_calls : (spectralChunk c chunk s).calls = s.calls := by
  rw [spectralChunk_eq]; split <;> rfl
@[simp] theorem spectralChunk_offers : (spectralChunk c chunk s).offers = s.offers := by
  rw [spectralChunk_eq]; split <;> rfl

/-- What the spectral path reports: the chunk's samples, and the whole acquisition when it completes (R157, R191). -/
def spectralEvents : List Event :=
  let r := accumulateChunk c s.acc chunk
  .spectralChunk r.2 ::
    if acquisitionComplete c r.1 then [.commandCompleted c.codeAcquire (.spectrum r.1.samples)] else []

@[simp] theorem spectralChunk_events : (spectralChunk c chunk s).events = s.events ++ spectralEvents c chunk s := by
  rw [spectralChunk_eq, spectralEvents]; split <;> simp_all

/-- The spectral path ends the command or leaves it pending in the same session (R191). -/
theorem spectralChunk_ends_or_stays :
    ((spectralChunk c chunk s).session = .idle ∧ (spectralChunk c chunk s).pending = none)
    ∨ ((spectralChunk c chunk s).session = s.session ∧ (spectralChunk c chunk s).pending = s.pending) := by
  rw [spectralChunk_eq]
  split
  next => exact .inl ⟨rfl, rfl⟩
  next => exact .inr ⟨rfl, rfl⟩

end

end Sys2Proof.Machine
end

section
/-! What every step keeps (10_state.md section 6): a step has the effect of an operation, and each effect keeps the
session invariants of R33 and the rules on the queued frames, the pending command and the accumulator. -/

namespace Sys2Proof.Machine

open Claims

/-- A step has the effect of some operation at the state with an offer taken away; a command byte that is no command is
refused as a reserved operation is, and with nothing offered the state stays. -/
theorem step_effect {s t : State} (h : step s = .next t) :
    ∃ i rest, Effect Config.device i { s with offers := rest } t := by
  obtain ⟨-, idle⟩ | ⟨o, rest, -, ⟨i, -, run⟩ | ⟨r, -, refused⟩⟩ := step_cases s
  · cases idle.symm.trans h
    exact ⟨.reserved0, s.offers, .none⟩
  · exact ⟨i, rest, exec_effect (run.symm.trans h)⟩
  · cases refused.symm.trans h
    exact ⟨.reserved0, rest, .refuse .unknownCommand (.inr (by simp [refusable]))⟩

theorem connected_of_rxEnabled {s : State} (h : rxEnabled s = true) : connected s = true :=
  (Bool.and_eq_true _ _ ▸ h).1

theorem connected_of_awaiting {s : State} (h : s.session = .awaiting) : connected s = true :=
  connected_iff.mpr (.inr h)

/-! ### The session invariants -/

section
variable {c : Config} {s t : State} {p : Pending}

/-- Unless an ACQUIRE is pending the accumulator is empty (R33 (3)). -/
theorem State.SessionInv.acc_eq_empty (inv : s.SessionInv c) (notAcquire : ∀ p ∈ s.pending, p.code ≠ c.codeAcquire) :
    s.acc = .empty := by
  obtain ⟨-, -, acquiring, -⟩ := inv
  by_contra full
  obtain ⟨p, pending, acquire⟩ := acquiring full
  exact notAcquire p pending acquire

/-- Unless awaiting nothing is pending (R33 (2)), so the accumulator is empty. -/
theorem State.SessionInv.of_not_awaiting (inv : s.SessionInv c) (other : s.session ≠ .awaiting) :
    s.pending = none ∧ s.acc = .empty := by
  have nothing : s.pending = none := by
    obtain ⟨-, await, -⟩ := inv
    by_contra pending
    exact other (await.mpr pending)
  exact ⟨nothing, inv.acc_eq_empty (by simp [nothing])⟩

/-- Outside a connection there is no handle, the listener is stopped and nothing is queued (R33 (1), (4)). -/
theorem State.SessionInv.of_not_connected (inv : s.SessionInv c) (off : connected s = false) :
    s.conn = none ∧ s.listener = .stopped ∧ s.txq = [] := by
  obtain ⟨⟨held, running⟩, -, -, queue⟩ := inv
  have noHandle : s.conn = none := by
    by_contra handle
    exact Bool.false_ne_true (off.symm.trans (held.mpr handle))
  refine ⟨noHandle, ?_, queue off⟩
  cases listener : s.listener
  case stopped => rfl
  case running => exact absurd noHandle (running.mpr listener)

/-- A pending command that ends takes a connection to `Idle`, with the accumulator empty, and the connection stays. -/
theorem State.SessionInv.ended (inv : s.SessionInv c) (on : connected s = true) (conn : t.conn = s.conn)
    (listener : t.listener = s.listener) (idle : t.session = .idle) (ended : t.pending = none)
    (empty : t.acc = .empty) : t.SessionInv c := by
  obtain ⟨⟨held, running⟩, -⟩ := inv
  have stillOn : connected t = true := connected_iff.mpr (.inl idle)
  have handle := held.mp on
  simp only [State.SessionInv, stillOn, conn, listener, idle, ended, empty, ← running]
  simp [handle]

/-- A state outside a connection whose fields have their reset values meets the invariants. -/
theorem State.sessionInv_of_reset_fields (off : connected t = false) (pending : t.pending = none) (acc : t.acc = .empty)
    (conn : t.conn = none) (listener : t.listener = .stopped) (queue : t.txq = []) : t.SessionInv c := by
  have notAwaiting : t.session ≠ .awaiting := fun awaiting => by simp [connected, awaiting] at off
  simp [SessionInv, off, pending, acc, conn, listener, queue, notAwaiting]

theorem State.sessionInv_teardown (r : StopReason) : (s.teardown r).SessionInv c :=
  sessionInv_of_reset_fields (by simp [connected]) (by simp) (by simp) (by simp) (by simp) (by simp)

theorem State.SessionInv.reject (inv : s.SessionInv c) (on : connected s = true) (pending : s.pending = some p)
    (notAcquire : p.code ≠ c.codeAcquire) (x : RejectReason) : (s.reject c p x).SessionInv c := by
  have empty := inv.acc_eq_empty (by simp [pending, notAcquire])
  obtain ⟨link, await, acc, queue⟩ := inv
  cases allowed : resendAllowed c p
  case false => rw [reject_of_limit allowed]; exact ⟨link, await, acc, queue⟩
  case true =>
    rw [reject_of_allowed allowed]
    have awaiting : s.session = .awaiting := await.mpr (by simp [pending])
    exact ⟨link, by simp [awaiting], fun full => absurd empty full, fun off => absurd (off.symm.trans on) (by simp)⟩

theorem State.SessionInv.spectralChunk (inv : s.SessionInv c) (on : connected s = true) (pending : s.pending = some p)
    (acquire : p.code = c.codeAcquire) (chunk : List Byte) : (spectralChunk c chunk s).SessionInv c := by
  rw [spectralChunk_eq]
  split
  next => exact inv.ended on rfl rfl rfl rfl rfl
  next =>
    obtain ⟨link, await, -, queue⟩ := inv
    exact ⟨link, await, fun _ => ⟨p, pending, acquire⟩, queue⟩

/-- An issued command is awaited, and the accumulator it starts with is empty: no command was pending before (R175). -/
theorem State.SessionInv.issue (inv : s.SessionInv c) (idle : s.session = .idle) (code : Byte) (w : Bool)
    (payload : List Byte) : (issue c code w payload s).SessionInv c := by
  obtain ⟨-, empty⟩ := inv.of_not_awaiting (by simp [idle])
  obtain ⟨⟨held, running⟩, -⟩ := inv
  have handle := held.mp (connected_iff.mpr (.inl idle))
  simp [State.SessionInv, issue_eq, accAtIssue, connected, empty, handle, ← running]

/-- Every effect keeps the four invariants of R33. -/
theorem Effect.keeps_sessionInv {i : Instr} (e : Effect c i s t) (inv : s.SessionInv c) : t.SessionInv c := by
  cases e
  case none | refuse | turnAway | violation | faulted => exact inv
  case issue code w payload _ _ _ idle => exact inv.issue idle code w payload
  case connect off | connectErr off =>
    obtain ⟨pending, empty⟩ := inv.of_not_awaiting (by simp [off])
    obtain ⟨conn, listener, queue⟩ := inv.of_not_connected (by simp [connected, off])
    exact State.sessionInv_of_reset_fields rfl pending empty conn listener queue
  case connectOk opening =>
    obtain ⟨pending, empty⟩ := inv.of_not_awaiting (by simp [opening])
    simp [State.SessionInv, connected, pending, empty]
  case teardownHost => exact s.sessionInv_teardown .cancelled
  case teardownSend => exact s.sessionInv_teardown .transportErrorSend
  case teardownReceive => exact s.sessionInv_teardown .transportErrorReceive
  case sent on _ =>
    obtain ⟨link, await, acc, -⟩ := inv
    exact ⟨link, await, acc, fun off => absurd (off.symm.trans on) (by simp)⟩
  case spectral chunk _ _ pending on acquire =>
    exact inv.spectralChunk (connected_of_rxEnabled on) pending acquire chunk
  case completed pending on notAcquire =>
    exact inv.ended (connected_of_rxEnabled on) rfl rfl rfl rfl (inv.acc_eq_empty (by simp [pending, notAcquire]))
  case rejected x _ pending on notAcquire => exact inv.reject (connected_of_rxEnabled on) pending notAcquire x
  case timedOut awaiting _ => exact inv.ended (connected_of_awaiting awaiting) rfl rfl rfl rfl rfl

end

/-- Settles O57: the taken offer is no field of the invariants, and every effect keeps them. -/
theorem everyStepKeepsTheSession : Obligations.EveryStepKeepsTheSession := by
  intro s t inv h
  obtain ⟨i, rest, effect⟩ := step_effect h
  exact effect.keeps_sessionInv inv

/-! ### The rules on the data -/

section
variable {c : Config} {s t : State} {p : Pending}

theorem accShape_empty : AccShape c .empty := by simp [AccShape, Acc.empty]

theorem accUnfinished_empty : AccUnfinished c .empty := fun full => absurd rfl full

/-- A byte is left over only of an odd number of bytes (R153). -/
theorem length_carryOf_le (bytes : List Byte) : (carryOf c bytes).toList.length ≤ bytes.length % 2 := by
  rw [carryOf]
  split
  next carried => simp [carried.2]
  next => simp

/-- A chunk counts all its bytes, and the pairs it completes take two of them each, the carried byte included
(R151 to R154). -/
theorem AccShape.accumulateChunk {a : Acc} (shape : AccShape c a) (chunk : List Byte) :
    AccShape c (accumulateChunk c a chunk).1 := by
  obtain ⟨-, counted⟩ := shape
  rw [accumulateChunk_eq]
  refine ⟨fun drop => carryOf_of_drop drop _, ?_⟩
  have left := length_carryOf_le (c := c) (a.carry.toList ++ chunk)
  simp only [List.length_append, length_pairSamples] at left ⊢
  omega

/-- An accumulation that a chunk does not complete has a total, which it does not reach (R155). -/
theorem accUnfinished_of_not_complete {a : Acc} (incomplete : ¬acquisitionComplete c a = true) : AccUnfinished c a := by
  intro _
  simpa [acquisitionComplete_iff] using incomplete

theorem State.dataInv_teardown (r : StopReason) : (s.teardown r).DataInv c :=
  ⟨by simp, by simp, by simpa using accShape_empty, by simp⟩

/-- A pending command that ends leaves nothing pending, and an accumulator that it leaves or clears. -/
theorem State.DataInv.ended (inv : s.DataInv c) (queue : t.txq = s.txq) (ended : t.pending = none)
    (acc : t.acc = s.acc ∨ t.acc = .empty) : t.DataInv c := by
  obtain ⟨frames, -, shape, unfinished⟩ := inv
  refine ⟨queue ▸ frames, by simp [ended], ?_⟩
  obtain same | empty := acc
  · exact same ▸ ⟨shape, unfinished⟩
  · exact empty ▸ ⟨accShape_empty, accUnfinished_empty⟩

theorem State.DataInv.issue (inv : s.DataInv c) (valid : c.Valid) {code : Byte} {payload : List Byte}
    (known : code ∈ c.codes) (fits : payload.length ≤ maxPayload) (w : Bool) :
    (issue c code w payload s).DataInv c := by
  obtain ⟨frames, -, shape, unfinished⟩ := inv
  rw [issue_eq]
  have shaped : FrameShape c (encodeFrame c code w payload) := frameShape_encodeFrame valid known fits
  refine ⟨List.forall_mem_append.mpr ⟨frames, List.forall_mem_singleton.mpr shaped⟩, ?_, ?_⟩
  · rintro p ⟨⟩
    exact ⟨known, fun k _ => Nat.zero_le k⟩
  · simp only [accAtIssue]
    split
    next => exact ⟨accShape_empty, accUnfinished_empty⟩
    next => exact ⟨shape, unfinished⟩

/-- A resend is counted only below the limit, and its frame has the shape of one as the pending code is a catalog
code. -/
theorem State.DataInv.reject (inv : s.DataInv c) (valid : c.Valid) (pending : s.pending = some p) (x : RejectReason) :
    (s.reject c p x).DataInv c := by
  obtain ⟨frames, commands, acc⟩ := inv
  cases allowed : resendAllowed c p
  case false => rw [reject_of_limit allowed]; exact ⟨frames, commands, acc⟩
  case true =>
    rw [reject_of_allowed allowed]
    obtain ⟨known, -⟩ := commands p pending
    have resend : FrameShape c (resendFrame c p) := frameShape_encodeFrame valid known (Nat.zero_le _)
    refine ⟨List.forall_mem_append.mpr ⟨frames, List.forall_mem_singleton.mpr resend⟩, ?_, acc⟩
    rintro q ⟨⟩
    exact ⟨known, fun k limit => (resendAllowed_iff c p).mp allowed k limit⟩

theorem State.DataInv.spectralChunk (inv : s.DataInv c) (chunk : List Byte) : (spectralChunk c chunk s).DataInv c := by
  rw [spectralChunk_eq]
  split
  next => exact inv.ended rfl rfl (.inr rfl)
  next incomplete =>
    obtain ⟨frames, commands, shape, -⟩ := inv
    exact ⟨frames, commands, shape.accumulateChunk chunk, accUnfinished_of_not_complete incomplete⟩

/-- Every effect keeps the rules on the queued frames, the pending command and the accumulator. -/
theorem Effect.keeps_dataInv {i : Instr} (e : Effect c i s t) (valid : c.Valid) (inv : s.DataInv c) : t.DataInv c := by
  cases e
  case none | refuse | turnAway | connect | connectOk | connectErr | violation | faulted => exact inv
  case issue w _ _ known fits _ => exact inv.issue valid known fits w
  case teardownHost => exact s.dataInv_teardown .cancelled
  case teardownSend => exact s.dataInv_teardown .transportErrorSend
  case teardownReceive => exact s.dataInv_teardown .transportErrorReceive
  case sent queued =>
    obtain ⟨frames, others⟩ := inv
    exact ⟨fun f m => frames f (queued ▸ .tail _ m), others⟩
  case spectral chunk _ _ _ _ _ => exact inv.spectralChunk chunk
  case completed => exact inv.ended rfl rfl (.inl rfl)
  case rejected x _ pending _ _ => exact inv.reject valid pending x
  case timedOut => exact inv.ended rfl rfl (.inr rfl)

end

/-- Settles O58: the taken offer is no field of the rules, and every effect keeps them. -/
theorem everyStepKeepsTheData : Obligations.EveryStepKeepsTheData := by
  intro s t inv h
  obtain ⟨i, rest, effect⟩ := step_effect h
  exact effect.keeps_dataInv Config.device_valid inv

/-- Settles O56: at reset nothing is connected, pending, accumulated or queued. -/
theorem resetMeetsTheInvariants : Obligations.ResetMeetsTheInvariants := fun _ =>
  ⟨State.sessionInv_of_reset_fields rfl rfl rfl rfl rfl rfl,
    by simp, by simp, by simpa using accShape_empty, accUnfinished_empty⟩

end Sys2Proof.Machine
end

section
/-! What every operation can do, by the part of the state it touches (43_session.md section 1, 10_state.md sections 5
and 6): the session, the history, the marks, the pending command, the queue and the transport calls; and the obligations
over all operations. -/

namespace Sys2Proof.Machine

open Claims

theorem isSend_eq_sends (i : Instr) : isSend i = sends i := by
  cases i <;> rfl

theorem agent_of_sends {i : Instr} (h : sends i = true) : i.agent = some .host := by
  cases i <;> cases h <;> rfl

theorem agent_of_refusable {i : Instr} (h : i ∈ refusable) : i.agent = some .timer ∨ i.agent = none := by
  simp only [refusable, List.mem_cons, List.not_mem_nil, or_false] at h
  obtain rfl | rfl | rfl | rfl | rfl | rfl | rfl := h <;> simp [Instr.agent]

section
variable {c : Config} {i : Instr} {s t : State}

/-- Which operation moves the session where (R170). -/
theorem Effect.session_moves (e : Effect c i s t) (moved : t.session ≠ s.session) :
    (s.session = .disconnected ∧ t.session = .connecting ∧ ∃ e, i = .hostConnect e)
    ∨ (s.session = .connecting ∧ t.session = .idle ∧ ∃ h, i = .connectOk h)
    ∨ (s.session = .connecting ∧ t.session = .disconnected ∧ i = .connectErr)
    ∨ (s.session = .idle ∧ t.session = .awaiting ∧ isSend i = true)
    ∨ (s.session = .awaiting ∧ t.session = .idle ∧ ((∃ chunk, i = .rxChunk chunk) ∨ i = .timerTimeout))
    ∨ ((s.session = .idle ∨ s.session = .awaiting) ∧ t.session = .disconnected
        ∧ ((∃ kind, i = .hostTeardown kind) ∨ i = .rxErr ∨ i = .txErr ∨ ∃ n, i = .txDone n)) := by
  cases e
  case none | refuse | turnAway | violation | faulted | sent => exact absurd rfl moved
  case connect e named off => exact .inl ⟨off, rfl, e, named⟩
  case connectOk h named opening => exact .inr (.inl ⟨opening, rfl, h, named⟩)
  case connectErr named opening => exact .inr (.inr (.inl ⟨opening, rfl, named⟩))
  case issue send _ _ idle => exact .inr (.inr (.inr (.inl ⟨idle, rfl, (isSend_eq_sends i).trans send⟩)))
  case teardownHost named on | teardownSend named on | teardownReceive named on => simp [named, connected_iff.mp on]
  case spectral chunk _ named _ on _ =>
    obtain ⟨idle, -⟩ | ⟨same, -⟩ := spectralChunk_ends_or_stays c chunk s
    · have awaiting := (connected_iff.mp (connected_of_rxEnabled on)).resolve_left fun here =>
        moved (idle.trans here.symm)
      exact .inr (.inr (.inr (.inr (.inl ⟨awaiting, idle, .inl ⟨chunk, named⟩⟩))))
    · exact absurd same moved
  case completed chunk _ _ named _ on _ =>
    have awaiting := (connected_iff.mp (connected_of_rxEnabled on)).resolve_left fun here => moved here.symm
    exact .inr (.inr (.inr (.inr (.inl ⟨awaiting, rfl, .inl ⟨chunk, named⟩⟩))))
  case rejected x _ pending _ _ => simp [State.reject_eq _ _ _ pending] at moved
  case timedOut named on _ => exact .inr (.inr (.inr (.inr (.inl ⟨on, rfl, .inr named⟩))))

/-- No operation removes or reorders an event (R29). -/
theorem Effect.events_grow (e : Effect c i s t) : s.events <+: t.events := by
  cases e
  case none | refuse | issue | connect | connectOk | sent | faulted => exact ⟨[], List.append_nil _⟩
  case rejected pending _ _ => simp [State.reject_eq _ _ _ pending]
  case spectral | teardownHost | teardownReceive | teardownSend => simp
  case turnAway | connectErr | violation | completed | timedOut => exact ⟨_, rfl⟩

/-- A mark that is set stays (R31, R32): there is one fault reason, and nothing clears the refusal mark. -/
theorem Effect.keeps_marks (e : Effect c i s t) :
    (∀ r, s.fault = some r → t.fault = some r) ∧ (s.refused = true → t.refused = true) := by
  cases e
  case refuse => exact ⟨fun _ same => same, fun _ => rfl⟩
  case faulted f _ _ _ _ => exact ⟨fun r _ => by cases r; cases f; rfl, fun same => same⟩
  case rejected pending _ _ => simp [State.reject_eq _ _ _ pending]
  case spectral | teardownHost | teardownReceive | teardownSend => simp
  all_goals exact ⟨fun _ same => same, fun same => same⟩

/-- What becomes of the pending command, and by which operations: it is kept, issued from `Idle`, dropped by a teardown,
ended by the response or the timeout, or kept with one resend more (R175, R187 to R192, R196). -/
theorem Effect.pending_moves (e : Effect c i s t) :
    t.pending = s.pending
    ∨ (sends i = true ∧ s.session = .idle)
    ∨ (t.pending = .none ∧ t.session = .disconnected)
    ∨ (t.pending = .none ∧ (i = .timerTimeout ∨ ∃ chunk, i = .rxChunk chunk))
    ∨ ∃ p, s.pending = some p ∧ t.pending = some { p with resends := p.resends + 1 } ∧ ∃ chunk, i = .rxChunk chunk := by
  cases e
  case issue send _ _ idle => exact .inr (.inl ⟨send, idle⟩)
  case teardownHost | teardownReceive | teardownSend => simp
  case spectral chunk p named _ _ _ =>
    obtain ⟨-, ended⟩ | ⟨-, same⟩ := spectralChunk_ends_or_stays c chunk s
    · exact .inr (.inr (.inr (.inl ⟨ended, .inr ⟨chunk, named⟩⟩)))
    · exact .inl same
  case completed chunk _ _ named _ _ _ => exact .inr (.inr (.inr (.inl ⟨rfl, .inr ⟨chunk, named⟩⟩)))
  case timedOut named _ _ => exact .inr (.inr (.inr (.inl ⟨rfl, .inl named⟩)))
  case rejected chunk p x named pending _ _ =>
    rw [State.reject_eq _ _ _ pending]
    obtain kept | counted := afterReject_cases c p
    · exact .inl (by rw [kept, pending])
    · exact .inr (.inr (.inr (.inr ⟨p, pending, congrArg some counted, chunk, named⟩)))
  all_goals exact .inl rfl

/-- The queue is appended to at its end, taken from at its front, or emptied with the connection (R30). -/
theorem Effect.queue_moves (e : Effect c i s t) :
    t.txq = s.txq ∨ (∃ f, t.txq = s.txq ++ [f]) ∨ (∃ f, s.txq = f :: t.txq)
    ∨ (t.txq = [] ∧ t.session = .disconnected) := by
  cases e
  case issue => exact .inr (.inl ⟨_, rfl⟩)
  case sent f _ _ _ queued => exact .inr (.inr (.inl ⟨f, queued⟩))
  case teardownHost | teardownReceive | teardownSend => simp
  case spectral chunk p named _ _ _ => simp
  case rejected chunk p x named pending _ _ =>
    rw [State.reject_eq _ _ _ pending]
    obtain nothing | resend := resendFrames_cases c p
    · exact .inl (by simp [nothing])
    · exact .inr (.inl ⟨_, congrArg (s.txq ++ ·) resend⟩)
  all_goals exact .inl rfl

/-- Only a teardown leaves a connection (R170, R196). -/
theorem Effect.leaves_connection (e : Effect c i s t) (on : connected s = true) (off : t.session = .disconnected) :
    ∃ r, t = s.teardown r ∨ t = (s.teardown r).returnStatus .accepted := by
  have here : s.session ≠ .disconnected := fun out => by simp [connected, out] at on
  cases e
  case teardownHost => exact ⟨_, .inr rfl⟩
  case teardownReceive | teardownSend => exact ⟨_, .inl rfl⟩
  case connectErr opening => simp [connected, opening] at on
  case connect | connectOk | completed | timedOut | issue => cases off
  case spectral chunk _ _ _ _ _ =>
    obtain ⟨idle, -⟩ | ⟨same, -⟩ := spectralChunk_ends_or_stays c chunk s
    · cases idle.symm.trans off
    · exact absurd (same.symm.trans off) here
  case rejected pending _ _ => exact absurd (by simpa [State.reject_eq _ _ _ pending] using off) here
  all_goals exact absurd off here

/-- Which calls an operation makes, with what becomes of the queue and the handle: none, the send of a frame it queues,
the close of the handle it gives up, or the connect of the host's request (R228). -/
theorem Effect.calls_made (e : Effect c i s t) :
    (t.calls = s.calls ∧ t.txq.length ≤ s.txq.length ∧ (t.conn = s.conn ∨ t.conn ≠ .none))
    ∨ (∃ f, t.calls = s.calls ++ [.send f] ∧ t.txq = s.txq ++ [f] ∧ t.conn = s.conn)
    ∨ (t.calls = s.calls ++ s.closeCall ∧ t.txq = [] ∧ t.conn = .none)
    ∨ (∃ e, i = .hostConnect e ∧ s.session = .disconnected ∧ t.txq = s.txq ∧ t.conn = s.conn) := by
  cases e
  case issue => exact .inr (.inl ⟨_, rfl, rfl, rfl⟩)
  case teardownHost | teardownReceive | teardownSend => simp
  case connect e named off => exact .inr (.inr (.inr ⟨e, named, off, rfl, rfl⟩))
  case sent queued => exact .inl ⟨rfl, by simp [queued], .inl rfl⟩
  case connectOk => exact .inl ⟨rfl, le_rfl, .inr (by simp)⟩
  case spectral => simp
  case rejected chunk p x named pending _ _ =>
    rw [State.reject_eq _ _ _ pending]
    obtain nothing | resend := resendFrames_cases c p
    · simp [nothing]
    · exact .inr (.inl ⟨resendFrame c p, by simp [resend], by simp [resend], rfl⟩)
  all_goals exact .inl ⟨rfl, le_rfl, .inl rfl⟩

/-- The transport's operations: no step, the two results of a connect, a teardown, or a frame sent (R172, R173, R182,
R183). -/
theorem Effect.of_transport (e : Effect c i s t) (transport : i.agent = some .transport) :
    t = s ∨ (∃ h, t = { s with conn := some h, listener := .running, session := .idle })
    ∨ t = { s with session := .disconnected, events := s.events ++ [.trace .transportFailureConnect] }
    ∨ t = s.teardown .transportErrorSend ∨ ∃ rest, t = { s with txq := rest } := by
  cases e
  case none => exact .inl rfl
  case connectOk h _ _ => exact .inr (.inl ⟨h, rfl⟩)
  case connectErr => exact .inr (.inr (.inl rfl))
  case teardownSend => exact .inr (.inr (.inr (.inl rfl)))
  case sent => exact .inr (.inr (.inr (.inr ⟨_, rfl⟩)))
  case turnAway host _ => cases host.symm.trans transport
  case issue send _ _ _ => cases (agent_of_sends send).symm.trans transport
  case refuse r host =>
    obtain send | other := host
    · cases (agent_of_sends send).symm.trans transport
    · obtain timer | nobody := agent_of_refusable other
      · cases timer.symm.trans transport
      · cases nobody.symm.trans transport
  all_goals subst_vars; cases transport
end

/-- Settles O45, by where each effect moves the session. -/
theorem sessionMovesOnlyAsListed : Obligations.SessionMovesOnlyAsListed := fun _ _ _ h moved =>
  (exec_effect h).session_moves moved

/-- Settles O46: the taken offer is no event, and every effect adds its events at the end. -/
theorem eventsOnlyGrow : Obligations.EventsOnlyGrow := by
  intro s t h
  obtain ⟨i, rest, effect⟩ := step_effect h
  exact effect.events_grow

/-- Settles O47: the taken offer is no mark, and every effect keeps both. -/
theorem marksAreNeverCleared : Obligations.MarksAreNeverCleared := by
  intro s t h
  obtain ⟨i, rest, effect⟩ := step_effect h
  exact effect.keeps_marks

/-- Settles O48: of what can become of the pending command, an issue needs `Idle`, where nothing is pending (R33 (2)),
and the ends leave none. -/
theorem pendingIsNeverOverwritten : Obligations.PendingIsNeverOverwritten := by
  intro i s t p q inv h before after
  obtain same | ⟨-, idle⟩ | ⟨ended, -⟩ | ⟨ended, -⟩ | ⟨p', pending, counted, -⟩ := (exec_effect h).pending_moves
  · cases before.symm.trans (same.symm.trans after)
    exact ⟨rfl, rfl, .inl rfl⟩
  · cases before.symm.trans (inv.of_not_awaiting (by simp [idle])).1
  · cases ended.symm.trans after
  · cases ended.symm.trans after
  · cases before.symm.trans pending
    cases counted.symm.trans after
    exact ⟨rfl, rfl, .inr rfl⟩

/-- Settles O50, by what each effect does to the queue. -/
theorem transmitQueueIsFifo : Obligations.TransmitQueueIsFifo := fun _ _ _ h => (exec_effect h).queue_moves

/-- Settles O51: leaving a connection is a teardown, which says what it clears and keeps. -/
theorem teardownIsNotAReset : Obligations.TeardownIsNotAReset := by
  intro i s t h on off
  obtain ⟨r, rfl | rfl⟩ := (exec_effect h).leaves_connection (connected_iff.mpr on) off
  all_goals exact ⟨by simp [sessionFieldsReset, Acc.empty_eq, emptyAcc], by simp, by simp, by simp⟩

/-- Settles O52: each way of making calls says what it does to the queue and the handle, and a connect from
`Disconnected` is the host's. -/
theorem callsFollowTheState : Obligations.CallsFollowTheState := by
  intro i s t h
  have opens : ∀ e, i = .hostConnect e → s.session = .disconnected → t.calls = s.calls ++ [.connect e] := by
    rintro e rfl off
    cases (exec_hostConnect e s).symm.trans h
    rw [hostConnect_of_disconnected off]
  obtain ⟨calls, queue, conn⟩ | ⟨f, calls, queue, conn⟩ | ⟨calls, queue, conn⟩ | ⟨e, named, off, queue, conn⟩ :=
    (exec_effect h).calls_made
  · have kept : ∀ h, s.conn = some h → t.conn ≠ none := fun h held =>
      conn.elim (fun same => by simp [same, held]) id
    refine ⟨fun _ => ⟨queue, kept⟩, fun f appended => ?_, fun h held gone => absurd gone (kept h held), opens,
      fun _ _ _ => calls⟩
    rw [appended, List.length_append, List.length_singleton] at queue
    omega
  · simp_all
  · cases held : s.conn <;> simp_all [State.closeCall]
  · have calls := opens e named off
    simp_all

/-- Settles O49, agent by agent: what becomes of the pending command names the operations, and so their agents; the
transport's operations are few, and each shows its fields. -/
theorem agentsKeepTheirAccessRights : Obligations.AgentsKeepTheirAccessRights := by
  intro i s t inv h
  have effect := exec_effect h
  refine ⟨fun host changed => ?_, fun listener nothing => ?_, fun listener p pending => ?_, fun transport changed => ?_,
    fun transport on => ?_, fun transport => ?_⟩
  · obtain same | ⟨-, idle⟩ | dropped | ⟨-, rfl | ⟨chunk, rfl⟩⟩ | ⟨p, -, -, chunk, rfl⟩ := effect.pending_moves
    · exact absurd same changed
    · exact .inl (inv.of_not_awaiting (by simp [idle])).1
    · exact .inr dropped
    all_goals cases host
  · obtain same | ⟨send, -⟩ | ⟨dropped, -⟩ | ⟨ended, -⟩ | ⟨p, pending, -⟩ := effect.pending_moves
    · exact same.trans nothing
    · cases (agent_of_sends send).symm.trans listener
    · exact dropped
    · exact ended
    · cases nothing.symm.trans pending
  · obtain same | ⟨send, -⟩ | ⟨dropped, -⟩ | ⟨ended, -⟩ | ⟨q, pending', counted, -⟩ := effect.pending_moves
    · exact .inr ⟨p.resends, same.trans pending⟩
    · cases (agent_of_sends send).symm.trans listener
    · exact .inl dropped
    · exact .inl ended
    · cases pending.symm.trans pending'
      exact .inr ⟨_, counted⟩
  all_goals obtain rfl | ⟨handle, rfl⟩ | rfl | rfl | ⟨rest, rfl⟩ := effect.of_transport transport <;> simp_all

end Sys2Proof.Machine
end

section
/-! The texts of the revision answers and the samples of an acquisition (41_response_decoder.md sections 2 and 3,
42_spectral_accumulator.md sections 2 to 4), and the obligations about them. -/

namespace Sys2Proof.Machine

open Claims

/-! ### Revision texts -/

theorem digitChar_eq {n : Nat} (h : n < 10) : digitChar n = Nat.digitChar n := by
  interval_cases n <;> rfl

/-- The numeral of R133 is the library's decimal numeral, by its number of digits. -/
theorem decimal_eq_toDigits (v : Byte) : decimal v = Nat.toDigits 10 v.toNat := by
  have bound := v.isLt
  have last : ∀ n, digitChar (n % 10) = Nat.digitChar (n % 10) := fun n => digitChar_eq (Nat.mod_lt n (by decide))
  rw [decimal]
  split_ifs with one two
  · rw [Nat.toDigits_of_lt_base one, digitChar_eq one]
  · rw [Nat.toDigits_of_base_le (by decide) (by omega), Nat.toDigits_of_lt_base (by omega), last,
      digitChar_eq (by omega), List.singleton_append]
  · rw [Nat.toDigits_of_base_le (by decide) (by omega), Nat.toDigits_of_base_le (by decide) (by omega),
      Nat.toDigits_of_lt_base (by omega), last, last, Nat.div_div_eq_div_mul, digitChar_eq (by omega)]
    rfl

/-- The range of a fixed tail that the chunk is long enough for is what the result is read from (R78, R132, R134). -/
theorem decodeFramed_of_tail {c : Config} {b : List Byte} {code : Byte} {f : InboundFrame} {offset len : Nat}
    (ok : validate c b code = .ok f) (tag : strategyOf c code = .fixedTail offset len)
    (long : offset + len ≤ b.length) :
    decodeFramed c b code =
      .decoded (tailResult c code (slice b (b.length - offset - len) (b.length - offset))) := by
  have taken : fixedTail offset len b = some (slice b (b.length - offset - len) (b.length - offset)) :=
    if_neg (Nat.not_lt.mpr long)
  simp only [decodeFramed_of_ok ok, decodeAccepted, tag, taken]

theorem exists_bytes_of_length_five {x : List Byte} (length : x.length = 5) :
    ∃ x0 x1 x2 x3 x4, x = [x0, x1, x2, x3, x4] := by
  match x, length with
  | [x0, x1, x2, x3, x4], _ => exact ⟨x0, x1, x2, x3, x4, rfl⟩

/-- Settles O13: five bytes are read, and the text is made of the last four. -/
theorem firmwareRevisionIsTheTail : Obligations.FirmwareRevisionIsTheTail := by
  intro c valid b f ok long
  have length : (slice b (b.length - 7) (b.length - 2)).length = 5 := by rw [length_slice]; omega
  obtain ⟨x0, x1, x2, x3, x4, tail⟩ := exists_bytes_of_length_five length
  refine ⟨x0, x1, x2, x3, x4, tail, ?_⟩
  rw [decodeFramed_of_tail ok (strategyOf_codeFwRev valid) long, Nat.sub_sub, tail, tailResult, if_pos rfl, renderFw]
  simp only [← decimal_eq_toDigits]
  rfl

/-- Settles O14: seven bytes are read, and each gives one character. -/
theorem fpgaRevisionIsTheTail : Obligations.FpgaRevisionIsTheTail := by
  intro c valid b f ok long
  obtain ⟨-, ⟨fwRev, -⟩, -⟩ := valid.distinct
  have length : (slice b (b.length - 9) (b.length - 2)).length = 7 := by rw [length_slice]; omega
  refine ⟨fpgaText c (slice b (b.length - 9) (b.length - 2)), ?_, length, by rw [fpgaText, List.length_map, length],
    fun k v at_k => ?_⟩
  · rw [decodeFramed_of_tail ok (strategyOf_codeFpgaRev valid) long, Nat.sub_sub, tailResult, if_neg fwRev.symm]
  · rw [fpgaText, List.getElem?_map, at_k]
    simp [fpgaChar, isPrintable]

/-! ### Samples -/

/-- The high byte fills the bits the low byte leaves (R55). -/
theorem toNat_sampleOf (lo hi : Byte) : (sampleOf lo hi).toNat = 256 * hi.toNat + lo.toNat := by
  have low := lo.isLt
  have high := hi.isLt
  have disjoint := Nat.shiftLeft_add_eq_or_of_lt low hi.toNat
  have shifted : hi.toNat <<< 8 = 256 * hi.toNat := by rw [Nat.shiftLeft_eq]; omega
  rw [shifted] at disjoint
  rw [sampleOf, BitVec.toNat_or, BitVec.toNat_shiftLeft, BitVec.toNat_setWidth, BitVec.toNat_setWidth,
    Nat.mod_eq_of_lt (by omega), Nat.mod_eq_of_lt (by omega), shifted, Nat.mod_eq_of_lt (by omega), disjoint]

/-- Sample `k` is made of the bytes `2k` and `2k + 1` (R151). -/
theorem getElem?_pairSamples {b : List Byte} {k : Nat} {lo hi : Byte} (first : b[2 * k]? = some lo)
    (second : b[2 * k + 1]? = some hi) : (pairSamples b)[k]? = some (sampleOf lo hi) := by
  induction b using pairSamples.induct generalizing k with
  | case1 lo' hi' rest ih =>
    cases k with
    | zero => simp_all [pairSamples]
    | succ k =>
      rw [pairSamples, List.getElem?_cons_succ]
      exact ih first second
  | case2 x => simp at second
  | case3 => simp at second

/-- Settles O18: a sample's pattern is 256 times its high byte plus its low byte, and its value is that pattern's. -/
theorem samplesAreLittleEndianPairs : Obligations.SamplesAreLittleEndianPairs := by
  intro b
  refine ⟨length_pairSamples b, fun k lo hi first second => ?_⟩
  rw [getElem?_pairSamples first second, Option.map_some, sext16, toNat_sampleOf]
  norm_cast

/-! ### Acquisitions -/

section
variable {c : Config}

/-- An even number of bytes before a stream does not change what is left over of it. -/
theorem carryOf_append {u : List Byte} (even : u.length % 2 = 0) (v : List Byte) :
    carryOf c (u ++ v) = carryOf c v := by
  cases policy : c.oddByte
  case drop => rw [carryOf_of_drop policy, carryOf_of_drop policy]
  case carry =>
    have parity : (u ++ v).length % 2 = v.length % 2 := by rw [List.length_append]; omega
    rw [carryOf_of_carry policy, carryOf_of_carry policy, parity]
    split
    next odd =>
      have nonempty : v ≠ [] := by rintro rfl; simp at odd
      rw [List.getLast?_append_of_ne_nil _ nonempty]
    next => rfl

/-- Under `Carry` a stream is an even number of bytes, whose pairs are its samples, and the byte left over (R153). -/
theorem exists_even_append_carryOf (carry : c.oddByte = .carry) (u : List Byte) :
    ∃ even, even.length % 2 = 0 ∧ u = even ++ (carryOf c u).toList ∧ pairSamples u = pairSamples even := by
  by_cases odd : u.length % 2 = 1
  · have nonempty : u ≠ [] := by rintro rfl; simp at odd
    have whole := u.dropLast_append_getLast nonempty
    have even : u.dropLast.length % 2 = 0 := by rw [List.length_dropLast]; omega
    refine ⟨u.dropLast, even, ?_, ?_⟩
    · rw [carryOf_of_carry carry, if_pos odd, List.getLast?_eq_some_getLast nonempty]
      exact whole.symm
    · rw [← whole, pairSamples_append _ _ even, whole]
      simp [pairSamples]
  · exact ⟨u, by omega, by rw [carryOf_of_carry carry, if_neg odd]; simp, rfl⟩

/-- The accumulator after the chunks of an acquisition, from the empty one (R156). -/
def accumulateAll (c : Config) (chunks : List (List Byte)) : Acc :=
  chunks.foldl (fun a chunk => (accumulateChunk c a chunk).1) .empty

theorem accumulateAll_concat (chunks : List (List Byte)) (chunk : List Byte) :
    accumulateAll c (chunks ++ [chunk]) = (accumulateChunk c (accumulateAll c chunks) chunk).1 := by
  simp [accumulateAll]

/-- Under `Carry` an acquisition over chunks is that of the concatenation, the byte left over included (R158). -/
theorem accumulateAll_of_carry (carry : c.oddByte = .carry) (chunks : List (List Byte)) :
    accumulateAll c chunks = ⟨pairSamples chunks.flatten, chunks.flatten.length, carryOf c chunks.flatten⟩ := by
  induction chunks using List.reverseRecOn with
  | nil => simp [accumulateAll, Acc.empty, pairSamples, carryOf]
  | append_singleton chunks chunk ih =>
    obtain ⟨even, isEven, whole, samples⟩ := exists_even_append_carryOf carry chunks.flatten
    rw [accumulateAll_concat, ih, accumulateChunk_eq, List.flatten_concat]
    have stream : chunks.flatten ++ chunk = even ++ ((carryOf c chunks.flatten).toList ++ chunk) := by
      rw [← List.append_assoc, ← whole]
    simp only [stream, pairSamples_append _ _ isEven, carryOf_append isEven, samples]
    rw [← stream, List.length_append]

/-- Under `Drop` each chunk gives its own samples and nothing is left over (R158). -/
theorem accumulateAll_of_drop (drop : c.oddByte = .drop) (chunks : List (List Byte)) :
    (accumulateAll c chunks).samples = (chunks.map pairSamples).flatten ∧ (accumulateAll c chunks).carry = none := by
  induction chunks using List.reverseRecOn with
  | nil => exact ⟨rfl, rfl⟩
  | append_singleton chunks chunk ih =>
    obtain ⟨samples, carry⟩ := ih
    rw [accumulateAll_concat, accumulateChunk_eq]
    simp [samples, carry, carryOf_of_drop drop]

theorem accumulateAll_byteCount (chunks : List (List Byte)) :
    (accumulateAll c chunks).byteCount = chunks.flatten.length := by
  induction chunks using List.reverseRecOn with
  | nil => rfl
  | append_singleton chunks chunk ih =>
    rw [accumulateAll_concat, accumulateChunk_eq, List.flatten_concat, List.length_append, ← ih]

end

/-- Settles O20: the accumulation over the chunks, by the policy on the odd byte. -/
theorem acquisitionSamples : Obligations.AcquisitionSamples := by
  intro c chunks
  refine ⟨fun carry => ?_, fun drop => (accumulateAll_of_drop drop chunks).1, accumulateAll_byteCount chunks,
    fun noTotal a => acquisitionComplete_iff.mpr (by simp [noTotal])⟩
  have samples : (accumulateAll c chunks).samples = pairSamples chunks.flatten := by rw [accumulateAll_of_carry carry]
  exact ⟨samples, (congrArg List.length samples).trans (length_pairSamples _)⟩

end Sys2Proof.Machine
end

section
/-! A received chunk, over all that can be pending (43_session.md section 5): the framed path's three outcomes field by
field, and the obligations about what a chunk reports, changes and leaves alone. -/

namespace Sys2Proof.Machine

open Claims

section
variable {c : Config} {chunk : List Byte} {s : State} {p : Pending}

/-- A chunk that is enabled is dispatched; the condition reads the session, the listener and the chunk's length. -/
theorem rxChunk_of_enabled (enabled : (rxEnabled s && chunkAdmitted c chunk) = true) :
    rxChunk c chunk s = dispatchChunk c chunk s := if_pos enabled

theorem rxChunk_of_not_enabled (off : ¬(rxEnabled s && chunkAdmitted c chunk) = true) : rxChunk c chunk s = s :=
  if_neg off

variable (pending : s.pending = some p) (notAcquire : p.code ≠ c.codeAcquire)
include pending notAcquire

/-! The framed path's three outcomes (R187 to R190). -/

theorem dispatchChunk_of_decoded {r : Result} (decoded : decodeFramed c chunk p.code = .decoded r) :
    dispatchChunk c chunk s =
      { s with events := s.events ++ [.commandCompleted p.code r], pending := none, session := .idle } := by
  rw [dispatchChunk_of_framed pending notAcquire, framedChunk, decoded]
  rfl

theorem dispatchChunk_of_faulted {f : Fault} (faulted : decodeFramed c chunk p.code = .faulted f) :
    dispatchChunk c chunk s = { s with fault := some f } := by
  rw [dispatchChunk_of_framed pending notAcquire, framedChunk, faulted]
  rfl

theorem dispatchChunk_of_rejected {x : RejectReason} (rejected : decodeFramed c chunk p.code = .rejected x) :
    dispatchChunk c chunk s =
      { s with
        events := s.events ++ [.commandRejected p.code x, .trace (rejectTrace c p)]
        pending := some (afterReject c p)
        txq := s.txq ++ resendFrames c p
        calls := s.calls ++ (resendFrames c p).map .send } := by
  rw [dispatchChunk_of_framed pending notAcquire, framedChunk, rejected]
  exact State.reject_eq c p x pending

end

/-- Settles O31: a chunk that decodes takes the first outcome of the framed path. -/
theorem decodedAnswerCompletes : Obligations.DecodedAnswerCompletes := by
  refine ⟨exec_rxChunk, fun c chunk s p r enabled pending notAcquire decoded => ?_⟩
  rw [rxChunk_of_receives enabled, dispatchChunk_of_decoded pending notAcquire decoded]

/-- Settles O33: fewer than six bytes are rejected as too short, and the limit decides about the resend. -/
theorem shortChunkIsRejected : Obligations.ShortChunkIsRejected := by
  intro chunk s p enabled pending notAcquire short
  rw [exec_rxChunk, rxChunk_of_rejected pending enabled notAcquire (validate_of_short short)]
  split_ifs with below
  · exact ⟨_, congrArg _ (s.reject_eq_resent below .tooShort)⟩
  · have atLimit : ∃ n, Config.device.resendLimit = some n ∧ n ≤ p.resends := by simpa using below
    obtain ⟨n, limit, reached⟩ := atLimit
    exact ⟨s.calls, congrArg _ (s.reject_eq_limitReached limit reached .tooShort)⟩

/-- Settles O17: the write flag is read by no test, and by no outcome but the resend's frame. -/
theorem readsAndWritesDecodeAlike : Obligations.ReadsAndWritesDecodeAlike := by
  intro c chunk s code n
  have pending : ∀ w, { s with pending := some ⟨code, w, n⟩ }.pending = some ⟨code, w, n⟩ := fun _ => rfl
  by_cases enabled : (rxEnabled s && chunkAdmitted c chunk) = true
  · have taken : ∀ w, rxChunk c chunk { s with pending := some ⟨code, w, n⟩ } =
        dispatchChunk c chunk { s with pending := some ⟨code, w, n⟩ } := fun _ => rxChunk_of_enabled enabled
    rw [taken, taken]
    by_cases acquire : code = c.codeAcquire
    · rw [dispatchChunk_of_acquire (pending true) acquire, dispatchChunk_of_acquire (pending false) acquire]
      simp only [spectral]
      split <;> exact ⟨rfl, rfl, rfl⟩
    · cases outcome : decodeFramed c chunk code
      case decoded =>
        rw [dispatchChunk_of_decoded (pending true) acquire outcome,
          dispatchChunk_of_decoded (pending false) acquire outcome]
        exact ⟨rfl, rfl, rfl⟩
      case faulted =>
        rw [dispatchChunk_of_faulted (pending true) acquire outcome,
          dispatchChunk_of_faulted (pending false) acquire outcome]
        exact ⟨rfl, rfl, rfl⟩
      case rejected =>
        rw [dispatchChunk_of_rejected (pending true) acquire outcome,
          dispatchChunk_of_rejected (pending false) acquire outcome]
        exact ⟨rfl, rfl, rfl⟩
  · have stays : ∀ w, rxChunk c chunk { s with pending := some ⟨code, w, n⟩ } =
        { s with pending := some ⟨code, w, n⟩ } := fun _ => rxChunk_of_not_enabled enabled
    rw [stays, stays]
    exact ⟨rfl, rfl, rfl⟩

/-- Settles O35: the enabling condition and every outcome without an acquisition read the shared fields and the
chunk. -/
theorem chunksAreJudgedAlone : Obligations.ChunksAreJudgedAlone := by
  intro c chunk s s' pending session listener notAcquire
  have sameCondition : rxEnabled s' = rxEnabled s := by simp [rxEnabled, connected, session, listener]
  by_cases enabled : (rxEnabled s && chunkAdmitted c chunk) = true
  · rw [rxChunk_of_enabled enabled, rxChunk_of_enabled (sameCondition ▸ enabled)]
    obtain command | ⟨p, command⟩ := Option.eq_none_or_eq_some s.pending
    · rw [dispatchChunk_of_none command, dispatchChunk_of_none (pending ▸ command)]
      exact ⟨_, rfl, rfl, pending, session⟩
    · have framed := notAcquire p command
      have command' : s'.pending = some p := pending ▸ command
      cases outcome : decodeFramed c chunk p.code
      case decoded =>
        rw [dispatchChunk_of_decoded command framed outcome, dispatchChunk_of_decoded command' framed outcome]
        exact ⟨_, rfl, rfl, rfl, rfl⟩
      case faulted =>
        rw [dispatchChunk_of_faulted command framed outcome, dispatchChunk_of_faulted command' framed outcome]
        exact ⟨[], by simp, by simp, pending, session⟩
      case rejected =>
        rw [dispatchChunk_of_rejected command framed outcome, dispatchChunk_of_rejected command' framed outcome]
        exact ⟨_, rfl, rfl, rfl, session⟩
  · rw [rxChunk_of_not_enabled enabled, rxChunk_of_not_enabled (sameCondition ▸ enabled)]
    exact ⟨[], by simp, by simp, pending, session⟩

/-- Settles O55: no outcome reads the queue, and the resend's frame is all that is appended to it. -/
theorem receivingIgnoresTheQueue : Obligations.ReceivingIgnoresTheQueue := by
  intro c chunk s q
  by_cases enabled : (rxEnabled s && chunkAdmitted c chunk) = true
  · have taken : rxChunk c chunk { s with txq := q } = dispatchChunk c chunk { s with txq := q } :=
      rxChunk_of_enabled enabled
    rw [rxChunk_of_enabled enabled, taken]
    obtain command | ⟨p, command⟩ := Option.eq_none_or_eq_some s.pending
    · have command' : { s with txq := q }.pending = none := command
      rw [dispatchChunk_of_none command, dispatchChunk_of_none command']
      exact ⟨[], by simp, by simp [State.emit]⟩
    · have command' : { s with txq := q }.pending = some p := command
      by_cases acquire : p.code = c.codeAcquire
      · rw [dispatchChunk_of_acquire command acquire, dispatchChunk_of_acquire command' acquire]
        simp only [spectral]
        split <;> exact ⟨[], by simp, by simp⟩
      · cases outcome : decodeFramed c chunk p.code
        case decoded =>
          rw [dispatchChunk_of_decoded command acquire outcome, dispatchChunk_of_decoded command' acquire outcome]
          exact ⟨[], by simp, by simp⟩
        case faulted =>
          rw [dispatchChunk_of_faulted command acquire outcome, dispatchChunk_of_faulted command' acquire outcome]
          exact ⟨[], by simp, by simp⟩
        case rejected =>
          rw [dispatchChunk_of_rejected command acquire outcome, dispatchChunk_of_rejected command' acquire outcome]
          exact ⟨_, rfl, rfl⟩
  · have stays : rxChunk c chunk { s with txq := q } = { s with txq := q } := rxChunk_of_not_enabled enabled
    rw [rxChunk_of_not_enabled enabled, stays]
    exact ⟨[], by simp, by simp⟩

/-- Settles O36: of a chunk's outcomes only the handling of a rejection reports one, and it queues at most the
resend. -/
theorem oneRejectionPerChunk : Obligations.OneRejectionPerChunk := by
  intro c chunk s
  obtain ⟨-, -, taken⟩ | same := rxChunk_cases c chunk s
  · rw [taken]
    obtain ⟨-, h⟩ | ⟨p, pending, ⟨-, h⟩ | ⟨-, ⟨r, -, h⟩ | ⟨f, -, h⟩ | ⟨x, -, h⟩⟩⟩ := dispatchChunk_cases c chunk s
    all_goals rw [h]
    · exact ⟨_, rfl, by simp, .inl rfl⟩
    · refine ⟨_, spectralChunk_events c chunk s, ?_, .inl (by simp)⟩
      rw [spectralEvents]; split <;> simp
    · exact ⟨_, rfl, by simp, .inl rfl⟩
    · exact ⟨[], by simp, by simp, .inl rfl⟩
    · rw [State.reject_eq _ _ _ pending]
      refine ⟨_, rfl, by simp, ?_⟩
      obtain nothing | resend := resendFrames_cases c p
      · exact .inl (by simp [nothing])
      · exact .inr ⟨resendFrame c p, congrArg (s.txq ++ ·) resend, length_resendFrame c p⟩
  · rw [same]
    exact ⟨[], by simp, by simp, .inl rfl⟩

/-- Settles O43, one outcome of a chunk after another: the framed path's leave the accumulator alone, and the spectral
path the queue, the calls and the fault mark. -/
theorem receiveFrame : Obligations.ReceiveFrame := by
  intro chunk s t h
  cases (exec_rxChunk chunk s).symm.trans h
  obtain ⟨-, -, taken⟩ | same := rxChunk_cases Config.device chunk s
  · rw [taken]
    obtain ⟨nothing, h⟩ | ⟨p, pending, ⟨acquire, h⟩ | ⟨notAcquire, ⟨r, -, h⟩ | ⟨f, -, h⟩ | ⟨x, -, h⟩⟩⟩ :=
      dispatchChunk_cases Config.device chunk s
    all_goals rw [h]
    · simp [nothing]
    · simp [pending, acquire]
    · simp [pending, notAcquire]
    · simp [pending, notAcquire]
    · simp [pending, notAcquire, State.reject_eq _ _ _ pending]
  · rw [same]
    simp

end Sys2Proof.Machine
end

section
/-! The sends as one operation, what has no step where it is not enabled, and what each group of operations leaves
unchanged (43_session.md sections 2 to 6); and the obligations about the run from reset (70_reset_and_hazards.md). -/

namespace Sys2Proof.Machine

open Claims

/-! ### Steps -/

/-- Settles O2, by the first offer and what it decodes to. -/
theorem stepExecutesTheDecodedOffer : Obligations.StepExecutesTheDecodedOffer := by
  refine ⟨fun s o rest i offered decoded => ?_, fun s o rest r offered decoded => ?_, fun s nothing => ?_⟩
  · simp only [step, offered, decoded]
  · simp only [step, offered, decoded]
    rfl
  · rw [step, nothing]

/-- Settles O7: the codes are read off the tables. -/
theorem enumerationsHaveTheirCodes : Obligations.EnumerationsHaveTheirCodes :=
  ⟨⟨rfl, rfl, rfl, rfl⟩, ⟨rfl, rfl, rfl, rfl⟩, ⟨rfl, rfl, rfl, rfl, rfl⟩, fun _ _ _ => ⟨rfl, rfl, rfl, rfl, rfl, rfl⟩,
    ⟨rfl, rfl, rfl⟩, fun _ _ _ _ _ _ => ⟨rfl, rfl, rfl, rfl, rfl⟩, rfl⟩

/-! ### Sends -/

/-- A command form is the send of its parts (R86). -/
theorem exec_of_commandParts {i : Instr} {code : Byte} {w : Bool} {p : List Byte}
    (parts : commandParts Config.device i = some (code, w, p)) (s : State) :
    exec i s = .next (sendCommand Config.device code w p s) := by
  cases i <;> cases parts <;> rfl

/-- Each of the sends is `HOST_SEND`'s meaning at some code, write flag and payload. -/
theorem exec_of_isSend {i : Instr} (send : isSend i = true) :
    ∃ code w p, ∀ s, exec i s = .next (sendCommand Config.device code w p s) := by
  cases i <;> cases send
  case hostSend code w p => exact ⟨code, w, p, exec_hostSend code w p⟩
  all_goals exact ⟨_, _, _, exec_of_commandParts rfl⟩

/-- Settles O25: both sides are the send of the form's parts. -/
theorem commandFormsAreSends : Obligations.CommandFormsAreSends := fun _ code w p s parts =>
  (exec_of_commandParts parts s).trans (exec_hostSend code w p s).symm

/-- From `Idle` a command form of a catalog code issues its command (R175). -/
theorem exec_commandForm_of_idle {i : Instr} {code : Byte} {w : Bool} {p : List Byte} {s : State}
    (parts : commandParts Config.device i = some (code, w, p)) (known : code ∈ Config.device.codes)
    (fits : p.length ≤ maxPayload) (idle : s.session = .idle) :
    ∃ k, exec i s = .next (issued Config.device code w p s k) :=
  ⟨_, (exec_of_commandParts parts s).trans (congrArg _ (sendCommand_of_idle w known fits idle))⟩

/-- Settles O24: each form has its parts, and their codes are in the catalog. -/
theorem commandFormsIssue : Obligations.CommandFormsIssue := by
  intro p s fits idle
  have ping := Config.device.codePing_mem
  have fwRev := Config.device.codeFwRev_mem
  have fpgaRev := Config.device.codeFpgaRev_mem
  have acquire := Config.device.codeAcquire_mem
  exact ⟨exec_commandForm_of_idle rfl ping fits idle, exec_commandForm_of_idle rfl ping fits idle,
    exec_commandForm_of_idle rfl fwRev fits idle, exec_commandForm_of_idle rfl fwRev fits idle,
    exec_commandForm_of_idle rfl fpgaRev fits idle, exec_commandForm_of_idle rfl fpgaRev fits idle,
    exec_commandForm_of_idle rfl acquire fits idle, exec_commandForm_of_idle rfl acquire fits idle,
    fun code known => ⟨exec_commandForm_of_idle rfl known fits idle, exec_commandForm_of_idle rfl known fits idle⟩⟩

/-- Settles O40: a send refuses, turns away, or issues, and only the last is a move of the session, from `Idle`. -/
theorem sendFrame : Obligations.SendFrame := by
  intro i s t send h
  obtain ⟨code, w, p, run⟩ := exec_of_isSend send
  cases (run s).symm.trans h
  obtain ⟨e, -⟩ | ⟨e, -⟩ | ⟨e, -⟩ | ⟨e, -⟩ | ⟨e, -, -, idle⟩ := sendCommand_cases Config.device code w p s
  case inr.inr.inr.inr => simp [e, issue_eq, idle]
  all_goals simp [e]

/-! ### Operations that are not enabled -/

section
variable {s : State}

theorem exec_connectOk_of_not_connecting (other : s.session ≠ .connecting) (h : Handle) :
    exec (.connectOk h) s = .next s :=
  congrArg Host.Outcome.next (if_neg (by simp [connectResultEnabled, other]))

theorem exec_connectErr_of_not_connecting (other : s.session ≠ .connecting) : exec .connectErr s = .next s :=
  congrArg Host.Outcome.next (if_neg (by simp [connectResultEnabled, other]))

theorem exec_txDone_of_not_enabled (off : txResultEnabled s = false) (n : Nat) : exec (.txDone n) s = .next s := by
  have same : txDone n s = s := by
    obtain ⟨f, rest, queued, on, -⟩ | ⟨on, queued, -⟩ | same := txDone_cases n s
    · simp [txResultEnabled, on, queued] at off
    · simp [txResultEnabled, on, queued] at off
    · exact same
  exact congrArg _ same

theorem exec_txErr_of_not_enabled (off : txResultEnabled s = false) : exec .txErr s = .next s :=
  congrArg Host.Outcome.next (if_neg (by simp [off]))

theorem exec_rxChunk_of_not_enabled (off : rxEnabled s = false) (chunk : List Byte) :
    exec (.rxChunk chunk) s = .next s :=
  congrArg Host.Outcome.next (if_neg (by simp [off]))

theorem exec_rxErr_of_not_enabled (off : rxEnabled s = false) : exec .rxErr s = .next s :=
  congrArg Host.Outcome.next (if_neg (by simp [off]))

theorem timerTimeout_of_not_awaiting {c : Config} (timer : c.timeoutEnabled = true) (other : s.session ≠ .awaiting) :
    timerTimeout c s = s := by
  obtain ⟨off, -⟩ | ⟨p, -, awaiting, -⟩ | same := timerTimeout_cases c s
  · cases off.symm.trans timer
  · exact absurd awaiting other
  · exact same

theorem txResultEnabled_eq_false_iff :
    txResultEnabled s = false ↔ s.session = .disconnected ∨ s.session = .connecting ∨ s.txq = [] := by
  rw [← or_assoc, ← connected_eq_false_iff]
  cases h : s.txq <;> simp [txResultEnabled, h]

theorem rxEnabled_eq_false_iff :
    rxEnabled s = false ↔ s.session = .disconnected ∨ s.session = .connecting ∨ s.listener = .stopped := by
  rw [← or_assoc, ← connected_eq_false_iff]
  cases h : s.listener <;> simp [rxEnabled, h]

end

/-- Settles O39, one enabling condition after another. -/
theorem notEnabledHasNoStep : Obligations.NotEnabledHasNoStep := by
  refine ⟨fun h s other => ⟨exec_connectOk_of_not_connecting other h, exec_connectErr_of_not_connecting other⟩,
    fun n s off => ?_, fun chunk s off => ?_, fun c chunk s long => ?_, fun c s => timerTimeout_of_not_awaiting⟩
  · rw [← txResultEnabled_eq_false_iff] at off
    exact ⟨exec_txDone_of_not_enabled off n, exec_txErr_of_not_enabled off⟩
  · rw [← rxEnabled_eq_false_iff] at off
    exact ⟨exec_rxChunk_of_not_enabled off chunk, exec_rxErr_of_not_enabled off⟩
  · exact if_neg (by simp [chunkAdmitted, long])

/-! ### Frames -/

/-- Settles O41: a connect opens or is turned away, and the results of one are taken while `Connecting` only. -/
theorem connectionFrame : Obligations.ConnectionFrame := by
  rintro i s t (⟨e, rfl⟩ | ⟨handle, rfl⟩ | rfl) h
  · cases (exec_hostConnect e s).symm.trans h
    obtain ⟨-, opens⟩ | ⟨-, away⟩ := hostConnect_cases e s
    · simp [opens]
    · simp [away]
  · by_cases opening : s.session = .connecting
    · cases (exec_connectOk_of_connecting opening handle).symm.trans h
      simp
    · cases (exec_connectOk_of_not_connecting opening handle).symm.trans h
      simp
  · by_cases opening : s.session = .connecting
    · cases (exec_connectErr_of_connecting opening).symm.trans h
      simp
    · cases (exec_connectErr_of_not_connecting opening).symm.trans h
      simp

/-- The operations that can tear down, besides the host's: a teardown from a connection, a frame sent, or no step
(R182, R183, R193). -/
theorem exec_cases_of_teardown {i : Instr} {s t : State} (named : (∃ n, i = .txDone n) ∨ i = .txErr ∨ i = .rxErr)
    (h : exec i s = .next t) :
    (connected s = true ∧ ∃ r, t = s.teardown r) ∨ (∃ rest, t = { s with txq := rest }) ∨ t = s := by
  obtain ⟨n, rfl⟩ | rfl | rfl := named
  · cases h
    obtain ⟨f, rest, -, -, -, taken⟩ | ⟨on, -, torn⟩ | same := txDone_cases n s
    · exact .inr (.inl ⟨rest, taken⟩)
    · exact .inl ⟨on, _, torn⟩
    · exact .inr (.inr same)
  · cases h
    by_cases enabled : txResultEnabled s = true
    · exact .inl ⟨(Bool.and_eq_true _ _ ▸ enabled).1, _, if_pos enabled⟩
    · exact .inr (.inr (if_neg enabled))
  · cases h
    by_cases enabled : rxEnabled s = true
    · exact .inl ⟨connected_of_rxEnabled enabled, _, if_pos enabled⟩
    · exact .inr (.inr (if_neg enabled))

/-- Settles O42: a teardown leaves the connection, so while the session stays there was none. -/
theorem teardownFrame : Obligations.TeardownFrame := by
  intro i s t named h
  obtain ⟨kind, rfl⟩ | named := named
  · cases (exec_hostTeardown kind s).symm.trans h
    obtain ⟨on, torn⟩ | ⟨-, away⟩ := hostTeardown_cases kind s
    · have left : s.session ≠ .disconnected := fun off => by simp [connected, off] at on
      simp [torn, left.symm]
    · simp [away]
  · obtain ⟨on, r, rfl⟩ | ⟨rest, rfl⟩ | rfl := exec_cases_of_teardown named h
    · have left : s.session ≠ .disconnected := fun off => by simp [connected, off] at on
      simp [left.symm]
    · simp
    · simp

/-- Settles O44: the timer's operation is refused, ends the command, or has no step, and the reserved codes are
refused. -/
theorem timerAndReservedFrame : Obligations.TimerAndReservedFrame := by
  intro i s t named h
  obtain rfl | reserved := List.mem_cons.mp named
  · cases (exec_timerTimeout s).symm.trans h
    obtain ⟨-, refused⟩ | ⟨p, -, -, -, ended⟩ | same := timerTimeout_cases Config.device s
    · simp [refused]
    · simp [ended]
    · simp [same]
  · have nobody : i.agent = none := by
      simp only [List.mem_cons, List.not_mem_nil, or_false] at reserved
      obtain rfl | rfl | rfl | rfl | rfl | rfl := reserved <;> rfl
    cases (exec_of_agent_none nobody s).symm.trans h
    simp

/-! ### From reset -/

/-- Settles O53: each operation of the bring-up finds the session the one before it left. -/
theorem bringUpAcceptsACommand : Obligations.BringUpAcceptsACommand := by
  intro e h code w p known fits
  exact ⟨_, _, _, (exec_hostConnect e _).trans (congrArg _ (hostConnect_of_disconnected rfl e)),
    exec_connectOk_of_connecting rfl h,
    (exec_hostSend code w p _).trans (congrArg _ (sendCommand_of_idle w known fits rfl)),
    rfl, rfl, rfl, rfl, rfl, rfl⟩

/-- Settles O54: `Disconnected` is left by a connect only, turns the host's other operations away, and enables none of
the transport's or the listener's. -/
theorem resetWaitsForAConnect : Obligations.ResetWaitsForAConnect := by
  refine ⟨fun i t h moved => ?_, fun code w p known fits => ?_, fun kind => ?_, fun i agent => ?_⟩
  · obtain ⟨-, -, connect⟩ | ⟨other, -⟩ | ⟨other, -⟩ | ⟨other, -⟩ | ⟨other, -⟩ | ⟨other | other, -⟩ :=
      (exec_effect h).session_moves moved
    · exact connect
    all_goals cases other
  · rw [exec_hostSend, sendCommand_of_not_connected w known fits (.inl rfl)]
  · rw [exec_hostTeardown, hostTeardown_of_not_connected rfl]
  · cases i <;> simp only [Instr.agent, reduceCtorEq, or_self, Option.some.injEq] at agent
    case connectOk h => exact exec_connectOk_of_not_connecting (by simp) h
    case connectErr => exact exec_connectErr_of_not_connecting (by simp)
    case txDone n => exact exec_txDone_of_not_enabled rfl n
    case txErr => exact exec_txErr_of_not_enabled rfl
    case rxChunk chunk => exact exec_rxChunk_of_not_enabled rfl chunk
    case rxErr => exact exec_rxErr_of_not_enabled rfl

end Sys2Proof.Machine
end
